-- ==== Sys2Proof/Word.lean ====
section
/-! DEFINITION. The words of the FW1: the widths that the spec gives bit fields (R7, R43, R77, R130). -/

namespace Sys2Proof

/-- One byte of any memory space (R7). -/
abbrev Byte := BitVec 8

/-- One 16-bit code word: a prefix word or a base word (R43). -/
abbrev Parcel := BitVec 16

/-- A general register or a system register (R130, R179). -/
abbrev Word := BitVec 64

/-- A vector register: 1,024 bits (R265). -/
abbrev VWord := BitVec 1024

/-- A mask register k0 to k7: one bit a lane, 128 at most (R265). -/
abbrev KWord := BitVec 128

/-- A 128-byte token (R115). -/
abbrev Token := BitVec 1024

end Sys2Proof
end

