-- ==== Sys2Proof/Machine/Sparse.lean ====
section
/-! DEFINITION. Sparse maps: every numbered store of the machine (register files, memories, tiles, tables) is a list of
key and value pairs with strictly rising keys. A key that is not listed reads as the store's default.
`put` keeps whatever it is given; `set` drops an entry equal to the default, so that stores of bytes and of registers
have ONE canonical form and equal contents are equal data. -/

namespace Sys2Proof.Machine

/-- A map from numbers to values, keys strictly rising. -/
abbrev Sparse (α : Type) := List (Nat × α)

/-- The value listed at a key, if one is. -/
def Sparse.find {α : Type} : Sparse α → Nat → Option α
  | [], _ => none
  | (j, v) :: m, k => if j = k then some v else Sparse.find m k

/-- The value at a key; `d` where none is listed. -/
def Sparse.get {α : Type} (d : α) (m : Sparse α) (k : Nat) : α := (Sparse.find m k).getD d

/-- `m` without an entry at `k`. -/
def Sparse.erase {α : Type} : Sparse α → Nat → Sparse α
  | [], _ => []
  | (j, v) :: m, k => if j = k then Sparse.erase m k else (j, v) :: Sparse.erase m k

/-- `m` with `v` listed at `k`. -/
def Sparse.put {α : Type} : Sparse α → Nat → α → Sparse α
  | [], k, v => [(k, v)]
  | (j, w) :: m, k, v =>
    if j = k then (k, v) :: m else if k < j then (k, v) :: (j, w) :: m else (j, w) :: Sparse.put m k v

/-- `m` with `v` at `k`, listed only where it differs from the default `d`. -/
def Sparse.set {α : Type} [DecidableEq α] (d : α) (m : Sparse α) (k : Nat) (v : α) : Sparse α :=
  if v = d then Sparse.erase m k else Sparse.put m k v

/-- Keys strictly rising, all of them at or above `lo`. -/
def Sparse.risingFrom {α : Type} : Nat → Sparse α → Bool
  | _, [] => true
  | lo, (j, _) :: m => decide (lo ≤ j) && Sparse.risingFrom (j + 1) m

/-- The canonical form: keys strictly rising and no entry equal to the default. -/
def Sparse.wf {α : Type} [DecidableEq α] (d : α) (m : Sparse α) : Bool :=
  Sparse.risingFrom 0 m && m.all (fun e => decide (e.2 ≠ d))

/-! ## Memories -/

/-- A memory: cells (address, byte), addresses strictly rising, no cell equal to what an unlisted address reads as. -/
abbrev Memory := List Host.Cell

/-- What an address that no cell lists reads as: 0. For T, A, C, W and X this is what self-test leaves (R454); for D it is
the model's DESIGN CHOICE (assumption 1). -/
def Memory.unlisted : Byte := 0

/-- The byte at an address. -/
def Memory.read (m : Memory) (a : Nat) : Byte := Sparse.get Memory.unlisted m a

/-- The memory with one byte written. -/
def Memory.write (m : Memory) (a : Nat) (b : Byte) : Memory := Sparse.set Memory.unlisted m a b

/-- The canonical form of a memory. -/
def Memory.wf (m : Memory) : Bool := Sparse.wf Memory.unlisted m

/-- `n` bytes from `a`, the first the least significant (R7). -/
def Memory.readNat (m : Memory) (a : Nat) : Nat → Nat
  | 0 => 0
  | n + 1 => (m.read a).toNat + 256 * Memory.readNat m (a + 1) n

/-- The low `n` bytes of `v` stored from `a`, the least significant first (R7). -/
def Memory.writeNat (m : Memory) (a : Nat) : Nat → Nat → Memory
  | 0, _ => m
  | n + 1, v => Memory.writeNat (m.write a (BitVec.ofNat 8 v)) (a + 1) n (v / 256)

end Sys2Proof.Machine
end

