-- ==== Sys2Proof/Machine/StateCore.lean ====
section
/-! DEFINITION. The state of a core and its contexts (chapters 01, 03 to 06 of spec/), as plain data. -/

namespace Sys2Proof.Machine

/-- The memory spaces with a code (R54, R100). -/
inductive Space where
  | t | a | c | w | d | x
deriving DecidableEq, Repr

/-- The space code of R54. -/
def Space.code : Space → Nat
  | .t => 0 | .a => 1 | .c => 2 | .w => 3 | .d => 4 | .x => 5

/-- The space of a code; 6 and 7 name none (R54). -/
def Space.ofCode : Nat → Option Space
  | 0 => some .t | 1 => some .a | 2 => some .c | 3 => some .w | 4 => some .d | 5 => some .x | _ => none

/-- The 64 cause codes (R194), in code order. -/
inductive Cause where
  | illegalEncoding | prefixChain | reservedNonzero | privilege | trapInsn | break | divideZero | codeAlign
  | streamUnbound | streamDirection | streamStop | gangBreak | priorityRange | handlerBudget | loopNest | eventOverflow
  | addrUnmapped | windowCross | align | bufferEngine | quireDistance | quoinHit | xlateMiss | xlatePerm
  | xlateStale | windowFormat | atomicSpace | localEcc | dramPoison | keySlot | dupCollapse | spaceRange
  | copyDescriptor | copyFault | matrixCommand | matrixOperand | walkRecord | walkSteal | portUnbound | portProtocol
  | mailTarget | formeStrayToken | formeImage | stickyMisuse | dramProtocol | vectorShape | spaOverflow | ingestOverrun
  | watchdog | tileLost | proofRollback | shrink | migrate | throttleNotice | clockHoldover | linkDegraded
  | securityViolation | debugHalt | kickPending | timer | machineCheck | spareSwap | powerSteward | firmwareState
deriving DecidableEq, Repr

/-- The code of a cause (R194): the constructors stand in code order. -/
def Cause.code (c : Cause) : Nat := c.ctorIdx

/-- The loop stack's entries (R153, R154). -/
structure LoopEntry where
  start : Word
  stop : Word
  remaining : Nat
deriving DecidableEq, Repr

/-- Where a result in flight goes (R136). -/
inductive Dest where
  | g (n : Nat)
  | v (n : Nat)
  | k (n : Nat)
deriving DecidableEq, Repr

/-- What a result in flight brings: its value, or a data-error fault with its `%einfo` (R140). -/
inductive Payload where
  | word (w : Word)
  | vec (w : VWord)
  | mask (w : KWord)
  /-- bytes that host or peer memory still owes (R369): the request's number, byte count and whether they are sign-extended -/
  | owed (id n : Nat) (sx : Bool)
  /-- the answer to the MAIL with this identifier of a core (R338) -/
  | answer (core : Nat) (ident : BitVec 32)
  /-- the end of the migration of a chase that a MIGRATE ordered (R383) -/
  | migration (chase : Nat)
  | dataError (cause : Cause) (info : Word)
deriving DecidableEq, Repr

/-- A result in flight: performed at issue, written when it returns (R137). `epc` and `len` name its instruction. -/
structure Flight where
  dest : Dest
  value : Payload
  epc : Word
  len : Nat
deriving DecidableEq, Repr

/-- `%tstate` (R180) but for `gang`, which the tile's gang table shows. -/
structure TState where
  priv : Bool
  ppriv : Bool
  te : Bool
  intrap : Bool
  pclass : BitVec 2
  skip : Bool
  nr : Bool
  len : BitVec 3
  notice : Bool
  alloc : Bool
  pd : Bool
deriving DecidableEq, Repr

/-- A synchronous trap whose entry waits for results in flight (R138, R186). -/
structure PendTrap where
  cause : Cause
  info : Word
  epc : Word
  len : Nat
  skip : Bool
  nr : Bool
deriving DecidableEq, Repr

/-- What a context runs (R28, R132). -/
inductive Handler where
  /-- no handler, or a context the micro-kernel built -/
  | none
  /-- a firing; `group` is the ready group's index in the actor descriptor's handler table (R323) -/
  | firing (group : Nat)
  /-- an item handler holding the coordinate with this linear index, or none after WNEXT answered −1 (R245) -/
  | item (walk : Nat) (index : Option Nat)
  /-- a mail handler: its mail's sender, the tag and index that it named, and its identifier (R342, R401) -/
  | mail (tile core ctx : Nat) (tag : BitVec 24) (index : Nat) (ident : BitVec 32)
deriving DecidableEq, Repr

/-- The named conditions that hold a waiting context (R134). -/
inductive Wait where
  | streamRead (unit : Nat)
  | streamWrite (unit : Nat)
  | streamFree (unit : Nat)
  /-- until a write binding of the context is flushed: of one unit, or of every one -/
  | streamFlush (unit : Option Nat)
  /-- translation of the page of byte `va` for an access at `addr` of `size` bytes -/
  | xlate (va : Nat) (write : Bool) (addr size : Nat)
  /-- for the parts of a load that host or peer memory owes (R369) -/
  | remote
  | quireTurns (q : Nat) (turns : Nat)
  /-- while the core's bank is at `limit` or above -/
  | quireBank (q limit : Nat)
  | quireNext (q : Nat) (turn : BitVec 64)
  | quireClear (q : Nat)
  | event
  | copyDone (ch : Nat) (ident : BitVec 32)
  | copyQueue (ch : Nat)
  | matrixDone (core : Nat) (ident : BitVec 32)
  | matrixQueue
  | walk (ident : BitVec 32)
  | walker
  | claim
  /-- a retirement whose quire bank is full (R256) -/
  | retire
  | steal
  | bar (n : Nat) (mask : BitVec 4) (observer : Bool)
  | gang (four : Bool)
  /-- a second context of its core that executes GANG waits for the first gang to dissolve (R171) -/
  | gangNext
  | sleep (deadline : Option Nat)
  | fence (kind : Nat) (scope : Nat)
  | send (port : Nat)
  | recv (port : Nat)
  | mailAnswer
  | mailFree
  /-- `n` free slots of a DREQ port (R354) -/
  | dramSlots (port n : Nat)
  | shootdown
  | drain
  | ctxSave (core ctx : Nat)
  /-- stopped for a CTXSAVE of its context -/
  | saving
  /-- chosen for the notice of this `%npend` bit, which it takes when its results have returned (R185, R186) -/
  | notice (bit : Nat)
  | galley (slot : Nat)
  | keyLoad (slot actor : Nat)
  | doubleTrap
  | results
deriving DecidableEq, Repr

/-- The state of a context (R134). -/
inductive Status where
  | free
  | ready
  | running
  | parked
  | waiting (w : Wait)
deriving DecidableEq, Repr

/-- The registers of a context (R130, R265); a register that is not listed holds 0. -/
structure Regs where
  g : Sparse Word
  v : Sparse VWord
  k : Sparse KWord
deriving DecidableEq, Repr

/-- The trap registers of a context (R180). -/
structure TrapRegs where
  cause : BitVec 6
  epc : BitVec 17
  einfo : Word
  ts : TState
  ksave : Sparse Word
deriving DecidableEq, Repr

/-- The other per-context system registers (R42, R88, R89, R108, R182, R183, R303). -/
structure CtxRegs where
  cls : BitVec 2
  cap : BitVec 2
  hbudget : BitVec 32
  bkey : BitVec 56
  ilock : Word
  fswitch : Word
  fflags : BitVec 7
  fmode : BitVec 3
  mstat : Word
deriving DecidableEq, Repr

/-- A context as a sender of mail (R340, R341): the target at which it is listed, the target that holds a reservation for it, and
the notifier of the last context-free notice, while it is kept; each by the tag that the mail named. -/
structure SenderState where
  listed : Option (BitVec 24)
  reserved : Option (BitVec 24)
  notice : Option (BitVec 24)
  /-- the target whose last answer was 2 or 3, after which MWAITF does not wait (R341) -/
  turned : Option (BitVec 24)
deriving DecidableEq, Repr

/-- One of the sixteen contexts of a core (R131, R134). -/
structure Ctx where
  status : Status
  handler : Handler
  regs : Regs
  trap : TrapRegs
  sys : CtxRegs
  /-- program counter; a transfer may leave any 64-bit value in it, and the next fetch checks it (R45) -/
  pc : Word
  /-- first word of the transfer that set `pc`; none after sequential execution (R194, CODE_ALIGN) -/
  pcFrom : Option Word
  loops : List LoopEntry
  flights : List Flight
  /-- words issued since the last marker or switch (R41) -/
  words : Nat
  /-- core cycles since the context last issued while ready (R31) -/
  waited : Nat
  /-- when its wait or its place in its class's rotation began: tickets of `State.ticket` -/
  since : Nat
  /-- the wait of the instruction at `pc` has been met, and the instruction completes when it issues -/
  granted : Bool
  /-- the instruction at `pc` stalls (R135): the core cycles that pass meanwhile are counted in `%ilock` -/
  stalled : Bool
  /-- a follower of a gang whose leader has completed the instruction at the follower's pc (R172) -/
  behind : Bool
  /-- a follower of a gang that has completed the instruction which holds its leader (R165, R172, R261) -/
  ahead : Bool
  /-- the context's handler has issued an instruction (R342) -/
  started : Bool
  pend : Option PendTrap
  /-- what the instruction at `pc` has taken before its wait: a value that it has read, and whether it holds an event entry (R244, R338) -/
  kept : Option (Nat × Bool)
  /-- the budget its handler started with (R194, HANDLER_BUDGET) and cycles counted toward the next unit (R191) -/
  budget0 : BitVec 32
  bcycles : Nat
  /-- invalidation acknowledgements owed for its writes to read-duplicated pages (R128) -/
  acks : Nat
  sender : SenderState
deriving DecidableEq, Repr

/-- A 16-byte event record (R22). -/
structure Record where
  engine : BitVec 8
  chan : BitVec 8
  status : BitVec 16
  ident : BitVec 32
  detail : Word
deriving DecidableEq, Repr

/-- A core's event queue (R21): the readable records, oldest first, the entries reserved by operations under way, and the records of those
that are complete and wait for an earlier identifier of their channel (R23). -/
structure EventQueue where
  ready : List Record
  held : Nat
  late : List Record
deriving DecidableEq, Repr

end Sys2Proof.Machine
end

