-- ==== Sys2Proof/Machine/StateEngines.lean ====
section
/-! DEFINITION. The state of the copy and stream engine, the walkers, the quires, the barriers, the gangs and the quoin table
(chapters 01, 06, 07, 08 and 09 of spec/), as plain data. -/

namespace Sys2Proof.Machine

/-- Who issued an engine operation: a core of the tile and one of its contexts. -/
structure Issuer where
  core : Nat
  ctx : Nat
deriving DecidableEq, Repr

/-- An entry of the quoin table (R24). -/
structure Quoin where
  space : Space
  core : Nat
  base : Nat
  len : Nat
  dst : Bool
  issuer : Nat
  engine : Nat
  chan : Nat
  ident : BitVec 32
deriving DecidableEq, Repr

/-- A transfer in a copy channel's queue (R201, R227): the snapshot of the sixteen shadow registers and what CPGO took
from its context. -/
structure Transfer where
  ident : BitVec 32
  snap : Sparse Word
  /-- the issuing context's `%fmode.rnd` at CPGO (R197 conv.round) -/
  rnd : BitVec 3
  bkey : BitVec 56
  by_ : Issuer
  /-- conversion flags collected so far (R207) -/
  flags : BitVec 7
  voided : Bool
  /-- it is to complete with status 0x4000 (R215) -/
  cancel : Bool
  /-- source bytes read by committed rounds -/
  bytes : BitVec 32
deriving DecidableEq, Repr

/-- How an operation that has performed its last event is to complete: status and detail of its record (R210, R256). -/
structure Ending where
  status : BitVec 16
  detail : Word
deriving DecidableEq, Repr

/-- One of a tile's eight copy channels (R196, R198, R227). -/
structure Channel where
  shadow : Sparse Word
  done : BitVec 32
  next : BitVec 32
  queue : List Transfer
  /-- first element of the current round of the transfer at the queue's head -/
  pos : Nat
  held : Bool
  /-- the fault that holds the channel: virtual address and cause (R213) -/
  fault : Option (Nat × Cause)
  /-- the head transfer has ended and waits to take effect (R256) -/
  ending : Option Ending
  /-- transfers that the channel was rebuilt without and that have still to complete (R215) -/
  dropped : List Transfer
deriving DecidableEq, Repr

/-- A pattern descriptor (R217). -/
structure Pattern where
  base : Nat
  space : Space
  core : Nat
  lens : List Nat
  steps : List Int
  fmt : Nat
  stopMask : BitVec 4
  seg : Bool
  quoin : Bool
  ev : Bool
  segbase : Nat
deriving DecidableEq, Repr

/-- What stands in a read stream's buffer (R219, R225). -/
inductive StreamItem where
  | elem (value : Nat)
  | stop (level : Nat)
  | terminal
  | bad (cause : Cause) (info : Word)
deriving DecidableEq, Repr

/-- An element appended to a write stream, and the bits of it that are written where not all are (R287). -/
structure Append where
  value : Nat
  keep : Option Nat
deriving DecidableEq, Repr

/-- A stream unit's binding (R216, R227). -/
structure Binding where
  owner : Nat
  write : Bool
  pat : Pattern
  bkey : BitVec 56
  ident : BitVec 32
  /-- elements delivered or appended -/
  count : Nat
  /-- next element to be read or committed, counted over the whole pattern -/
  next : Nat
  /-- with seg: the run under way, elements of it passed and its length once read -/
  run : Nat
  inRun : Nat
  runLen : Option Nat
  /-- a read stream's buffer, oldest first -/
  buf : List StreamItem
  ended : Bool
  /-- appended elements not yet performed, oldest first -/
  open_ : List Append
  held : Bool
  fault : Option (Nat × Cause)
  voided : Bool
  /-- the first data error that the binding has met: its record's status and detail (R106, R210) -/
  ending : Option Ending
deriving DecidableEq, Repr

/-- One of a core's sixteen stream units (R216). `cancelled`: the contexts whose binding the micro-kernel has cancelled, and that have not
bound the unit again (R225). -/
structure StreamUnit where
  bind : Option Binding
  nbind : BitVec 32
  cancelled : List Nat
deriving DecidableEq, Repr

/-- A walk signature (R228). -/
structure Signature where
  dims : Nat
  order : Nat
  red : Bool
  steal : Bool
  pack : Bool
  ev : Bool
  limit : Nat
  ext : List Nat
  blk : List Nat
  item : Nat
  ibudget : Nat
  args : Nat
  qmask : BitVec 8
  tag : BitVec 24
  tsize : Nat
  slots : Nat
  slotsize : Nat
deriving DecidableEq, Repr

/-- A walker: its tile's tag and its core. -/
structure WalkerName where
  tag : BitVec 24
  core : Nat
deriving DecidableEq, Repr

/-- A coordinate in flight (R231): its index and the context that runs it; none while its context is saved (R402). -/
structure Coord where
  index : Nat
  ctx : Option Nat
deriving DecidableEq, Repr

/-- The piece a walker holds (R231, R250). -/
structure Piece where
  walk : BitVec 32
  sigAddr : Nat
  sig : Signature
  /-- blocks of the whole walk -/
  total : Nat
  thief : Bool
  home : WalkerName
  next : Nat
  stop : Nat
  retired : Nat
  freed : Nat
  flying : Sparse Coord
  /-- an uncorrectable unit that the walker has read for this piece (R106) -/
  ecc : Option Nat
deriving DecidableEq, Repr

/-- An open walk of a home walker (R232). -/
structure OpenWalk where
  walk : BitVec 32
  total : Nat
  retired : Nat
  freed : Nat
  ev : Bool
  by_ : Issuer
  ecc : Option Nat
deriving DecidableEq, Repr

/-- A steal request (R238): the thief, its tile, the context whose WSTEAL sent it, or else the walk of the notice that it was
sent for (R241), named by its home and its identifier. -/
structure StealReq where
  thief : WalkerName
  tile : Nat
  by_ : Option Nat
  walk : Option (WalkerName × BitVec 32)
deriving DecidableEq, Repr

/-- A walk notice kept by a walker (R241), with the place reached in its rotation of victims. -/
structure WalkNotice where
  walk : BitVec 32
  home : WalkerName
  tag : BitVec 24
  tsize : Nat
  tried : Nat
deriving DecidableEq, Repr

/-- The walker of a core (R231, R232, R241, R250). -/
structure Walker where
  piece : Option Piece
  open_ : List OpenWalk
  nextId : BitVec 32
  notices : List WalkNotice
  saving : Bool
  /-- contexts whose WNEXT claim waits, oldest first, and whether a dispatch stands before the claim (R238) -/
  claims : List (Nat × Bool)
  /-- the outstanding steal request: automatic, or WSTEAL of a context -/
  asking : Option (Option Nat)
  /-- the answer to a WSTEAL: context and status word -/
  answer : Sparse Word
deriving DecidableEq, Repr

/-- One of a tile's eight quires (R252, R253, R264). -/
structure Quire where
  en : Bool
  base : Nat
  leaf : Nat
  depth : Nat
  dmax : Nat
  parts : BitVec 14
  lp : Nat
  turns : BitVec 64
  banks : Sparse Nat
  tagged : Nat
  err : Nat
  /-- the 32 bytes of the descriptor loaded last -/
  raw : Nat
  /-- for each core, one entry an arrival that the vector unit has still to follow: the vector write streams that the core's
  contexts then held, as (unit, binding number, elements appended) (R255) -/
  marks : Sparse (List (List (Nat × BitVec 32 × BitVec 32)))
deriving DecidableEq, Repr

/-- One of a tile's eight barriers (R165): the latched mask and the arrived set while open. -/
structure Barrier where
  open_ : Bool
  latched : BitVec 4
  arrived : BitVec 4
deriving DecidableEq, Repr

/-- A formed gang (R171): its members as (core, context), the leader first. -/
structure Gang where
  members : List (Nat × Nat)
deriving DecidableEq, Repr

/-- A core's sparse accumulator (R285): its format (s32 or f32) and its entries by coordinate. -/
structure Spa where
  isS32 : Bool
  entries : Sparse (BitVec 32)
deriving DecidableEq, Repr

/-- The five matrix commands (R300, R301). -/
inductive MOp where
  | mma (z : Bool)
  | mmac (z : Bool)
  | mwload
  | mclr
  | mdrain
deriving DecidableEq, Repr

/-- A command in a core's matrix queue (R300, R315): the descriptors and what else issue snapshots. -/
structure MCmd where
  ident : BitVec 32
  op : MOp
  /-- the PX.M payload -/
  mod : BitVec 10
  dd : Word
  da : Word
  db : Word
  ctx : Nat
  /-- the issuing context's handler has not ended since the issue (R309) -/
  live : Bool
  /-- it is to complete with status 0x4000 (R314) -/
  cancel : Bool
  bkey : BitVec 56
  rnd : BitVec 3
deriving DecidableEq, Repr

/-- A core's matrix command queue (R297, R315). -/
structure MQueue where
  done : BitVec 32
  next : BitVec 32
  cmds : List MCmd
  /-- next K block of the head command, or tokens written for an MWLOAD -/
  pos : Nat
  /-- flags collected so far by the head command -/
  flags : BitVec 7
  held : Bool
  fault : Option (Nat × Cause)
  ending : Option Ending
  /-- commands that the queue was rebuilt without and that have still to complete, with the flags that each had collected (R314) -/
  dropped : List (MCmd × BitVec 7)
deriving DecidableEq, Repr

/-- The array's arbiter (R298): weights, current queue, remaining credit; `fresh` while weights written since wait for the next step
boundary (R307). -/
structure MArbiter where
  weights : List Nat
  cur : Nat
  credit : Nat
  fresh : Bool
  /-- the core whose MWLOAD the load path served last -/
  loader : Nat
deriving DecidableEq, Repr

end Sys2Proof.Machine
end

