-- ==== Sys2Proof/Machine/StatePort.lean ====
section
/-! DEFINITION. The state of the port engine, the DRAM actors and the translation nodes (chapters 12 and 13 of spec/), as
plain data. -/

namespace Sys2Proof.Machine

/-- A tag (R15): kind, name and member in 24 bits. -/
abbrev Tag := BitVec 24

/-- What an arc token carries (R316 types 0 to 3, and the replies of R351, which are data tokens to their port). -/
inductive TokKind where
  | data
  | colophon (level : Nat)
  | proof (cut : BitVec 32)
  | probe
  | seam
deriving DecidableEq, Repr

/-- A token on an arc or in a port queue (R316). -/
structure Tok where
  kind : TokKind
  payload : Token
  len : Nat
  stag : Tag
  sport : Nat
  seq : BitVec 32
  /-- status and row index of a DRAM reply; 0 for every other token (R351) -/
  status : BitVec 16
  row : Nat
  /-- its slot belongs to a DREQ port: the requester's tag and port (R355) -/
  dreq : Option (Tag × Nat)
  /-- the link by which it came, if it came from another module -/
  via : Option Nat
deriving DecidableEq, Repr

/-- An input port (R317, R322, R326, R344). -/
structure InPort where
  arc : Bool
  bound : Bool
  auto : Bool
  inv : Nat
  sticky : Nat
  entry : BitVec 17
  budget : BitVec 24
  queue : List Tok
  /-- uses left of the resident sticky token at the queue's head -/
  uses : Option Nat
  /-- the level that sealed the port -/
  sealed_ : Option Nat
  /-- producer of the arc that ends here: tag and output port, where slots return; none for a forme input or a reply port -/
  src : Option (Tag × Nat)
deriving DecidableEq, Repr

/-- A reply that a DREQ port is owed (R355): its seq, its row, where it goes, and who issued the request. -/
structure Owed where
  seq : BitVec 32
  row : Nat
  rtag : Tag
  rport : Nat
  by_ : Issuer
deriving DecidableEq, Repr

/-- An output port (R318, R319, R355). -/
structure OutPort where
  dtag : Tag
  dport : Nat
  arc : Bool
  auto : Bool
  seq : BitVec 32
  slots : Nat
  owed : List Owed
  /-- the port is blocked until its seam is acknowledged (R379) -/
  seamed : Bool
deriving DecidableEq, Repr

/-- The actor descriptor (R320). -/
structure ActorDesc where
  args : BitVec 20
  fcore : BitVec 2
  cfire : Bool
  fcap : BitVec 2
  mlimit : BitVec 7
  mbase : BitVec 20
  mcap : BitVec 2
  bkey : BitVec 56
deriving DecidableEq, Repr

/-- A mail binding (R320). -/
structure MailBinding where
  entry : BitVec 17
  valid : Bool
  budget : BitVec 24
deriving DecidableEq, Repr

/-- A change of binding that waits for the running firing's close (R327). -/
structure Rebind where
  port : Nat
  value : Word
deriving DecidableEq, Repr

/-- The running firing (R323, R344): its context, its group, the ports it consumed from, the sticky ports whose resident
token was a head at its start. -/
structure Firing where
  core : Nat
  ctx : Nat
  entry : BitVec 17
  group : List Nat
  consumed : List Nat
  residents : List Nat
  rebinds : List Rebind
deriving DecidableEq, Repr

/-- A sender context (R340). -/
structure Sender where
  tile : Nat
  core : Nat
  ctx : Nat
deriving DecidableEq, Repr

/-- A reservation (R340): the held context, the sender and its deadline in reference ns. -/
structure Reservation where
  core : Nat
  ctx : Nat
  sender : Sender
  deadline : Nat
deriving DecidableEq, Repr

/-- A reply owed by a running mail handler (R342): the sender's tile and core, and its mail's identifier. -/
structure ReplyOwed where
  core : Nat
  ctx : Nat
  tile : Nat
  sender : Nat
  ident : BitVec 32
  /-- the reply has been sent -/
  sent : Bool
deriving DecidableEq, Repr

/-- A page's translation (R357, R360). -/
structure Xentry where
  page : Nat
  level : Nat
  entry : Word
  gen : BitVec 32
deriving DecidableEq, Repr

/-- A held access at the translation node (R364, R371). -/
structure HeldAccess where
  engine : Nat
  chan : Nat
  core : Nat
  ident : BitVec 32
  va : Nat
  cause : Cause
  gen : BitVec 32
deriving DecidableEq, Repr

/-- A token of host or peer memory that an engine operation, or a load of several parts, reads (R369): its holder, virtual address and
bytes, its request, and its value once it has come. -/
structure RemoteRead where
  holder : Nat
  va : Nat
  bytes : Nat
  ident : BitVec 32
  value : Option Nat
deriving DecidableEq, Repr

/-- One row of a request (R350): its number, its virtual address, and its translation once made. -/
structure DramRow where
  row : Nat
  va : Nat
  entry : Option Xentry
  pa : Nat
deriving DecidableEq, Repr

/-- A request to DRAM actors, before or after translation (R350, R353), or to host or peer memory (R369). -/
structure DramReq where
  op : Nat
  aw : Bool
  amo : Nat
  z : Bool
  bytes : Nat
  key : BitVec 10
  chase : Nat
  /-- requester: its tag where it is a DREQ port, its tile and output port, and the request's seq -/
  rq : Tag
  tile : Nat
  port : Nat
  seq : BitVec 32
  rtag : Tag
  rport : Nat
  by_ : Issuer
  /-- its descriptor breaks the table of R353, and the node refuses it (R354) -/
  refused : Bool
  rows : List DramRow
  value : Word
  cmp : Word
  data : Token
deriving DecidableEq, Repr

/-- A low mark written for an open window (R367, R371): the binding or transfer that it holds for. -/
structure LowMark where
  window : Nat
  mark : Nat
deriving DecidableEq, Repr

/-- The translation node of a tile (R357, R371). -/
structure Xnode where
  root : Nat
  key : BitVec 10
  chase : Nat
  rgen : BitVec 32
  /-- the buffer, most recently used first -/
  buf : List Xentry
  /-- pins by holder: copy channel c is 0 + c, stream unit u of core k is 16 + 16k + u, the MWLOADs of core k are 80 + k -/
  pins : Sparse Xentry
  held : List HeldAccess
  /-- reads of host or peer memory under way; holders as `pins`, and 128 + 16 core + context for a load -/
  remote : List RemoteRead
  /-- DREQ requests waiting at the node, oldest first; a held port's requests wait behind its head -/
  dreqs : List DramReq
  /-- low marks written for open windows by holder, as `pins` (R367, R371) -/
  marks : Sparse LowMark
  /-- the tile's minimum at the last look, a rise since the last sending that is still to be sent, the minimum last sent, and when -/
  seenMin : Option Nat
  risen : Bool
  sentMin : Option Nat
  sentAt : Nat
  /-- actors that a written flush state leaves out for a DREQ port: (port, actor) with no request sent since (R371) -/
  flushed : List (Nat × Nat)
  /-- cores whose shootdown waits for acknowledgements: (core, ctx, nodes still to answer) -/
  shooting : List (Nat × Nat × List Nat)
deriving DecidableEq, Repr

/-- An invalidation sent and not acknowledged (R365, R366): the duplicate, the writer, the virtual page, and when it was sent while the
home has not reported it late. An engine operation writes as context 16 + its channel, 32 + its stream unit, 48 for a matrix queue
or 64 + its port for a DREQ. -/
structure DupAck where
  dup : Nat
  tile : Nat
  core : Nat
  who : Nat
  va : Nat
  sent : Option Nat
deriving DecidableEq, Repr

/-- The home's directory entry of a duplicated page (R365): physical page and its bytes, the generation of its translation, its
duplicates still serving, and the invalidations sent and not acknowledged. -/
structure DirEntry where
  page : Nat
  size : Nat
  gen : BitVec 32
  dups : List Nat
  owing : List DupAck
deriving DecidableEq, Repr

/-- A page that a duplicate has collapsed (R365): its bytes, the generation of the write that collapsed it, and the tokens of the
duplicate written since. -/
structure Collapse where
  size : Nat
  gen : BitVec 32
  written : List Nat
deriving DecidableEq, Repr

/-- A DRAM actor (R345, R348, R349, R365). -/
structure DramActor where
  keys : Sparse (BitVec 512)
  errors : Sparse Nat
  spareUsed : Bool
  dir : List DirEntry
  /-- duplicated pages that this actor has collapsed, by the home's physical page -/
  collapsed : Sparse Collapse
  lost : Bool
deriving DecidableEq, Repr

/-- The D store (R346, R348, R349): plaintext bytes by physical address, the key pair each written token stands under, and
the poisoned tokens. -/
structure Dram where
  bytes : Memory
  keyOf : Sparse (BitVec 512)
  poison : List Nat
deriving DecidableEq, Repr

end Sys2Proof.Machine
end

