-- ==== Sys2Proof/Syntax.lean ====
section
/-! DEFINITION. The instructions of the FW1 (chapter 02 of spec/) and its named steps: one constructor for each row of the opcode
table. An encoded instruction carries its operand fields in ONE record; a step that no word encodes carries what names it: the
tile `t`, the core `c`, the context `x`, a unit of them, or the index `n` of the message it delivers. -/

namespace Sys2Proof

/-- The fields of an encoded instruction after prefixes have extended them (R43 to R50). -/
structure Opnd where
  /-- the switch marker S (R43) -/
  mark : Bool
  /-- a PX.P stands in the chain -/
  p : Bool
  fx : BitVec 7
  /-- payload of the PX.M, if one stands in the chain -/
  m : Option (BitVec 10)
  /-- a PX.R stands in the chain -/
  r : Bool
  /-- number of PX.I words -/
  ni : Nat
  d : BitVec 6
  a : BitVec 6
  b : BitVec 6
  /-- the function of DA, or the kind c of BO -/
  f : BitVec 2
  /-- the payload of ZX -/
  x : BitVec 10
  /-- the immediate, assembled and extended (R50) -/
  imm : Int
deriving DecidableEq, Repr

/-- The modifier; all zero without PX.M (R48). -/
def Opnd.mod (o : Opnd) : BitVec 10 := o.m.getD 0

/-- Bits [hi:lo] of the modifier. -/
def Opnd.mf (o : Opnd) (hi lo : Nat) : Nat := o.mod.toNat / 2 ^ lo % 2 ^ (hi + 1 - lo)

/-- Bits [hi:lo] of a ZX payload. -/
def Opnd.xf (o : Opnd) (hi lo : Nat) : Nat := o.x.toNat / 2 ^ lo % 2 ^ (hi + 1 - lo)

/-- Length in words of an encoded instruction (R45). -/
def Opnd.len (o : Opnd) : Nat := 1 + o.p.toNat + o.m.isSome.toNat + o.r.toNat + o.ni

/-- A command packet of a galley (R390): its index in the ring and its 64 bytes. -/
structure Packet where
  index : BitVec 32
  bytes : List Byte
deriving DecidableEq, Repr

/-- An alarm (R443): the external input, the temperature that a sensor reads, or the power steward. -/
inductive Alarm where
  | external
  | thermal (celsius : Nat)
  | steward
deriving DecidableEq, Repr

/-- What self-test finds (R454, step 3): tiles that fail. -/
structure SelfTest where
  failed : List Nat
deriving DecidableEq, Repr

/-- A Bileel frame (R463): its header's fields and its body. -/
structure Frame where
  version : Nat
  op : Nat
  session : Nat
  seq : BitVec 32
  ack : BitVec 32
  length : Nat
  addr : Word
  zero : Word
  body : List Byte
deriving DecidableEq, Repr

/-- An Ethernet frame that is no Bileel frame (R462, R468): destination MAC, VLAN ID and PCP if tagged, its bytes from the
destination MAC through the payload, and the reference time at its first byte. -/
structure EthFrame where
  mac : BitVec 48
  vlan : Option (BitVec 12)
  prio : BitVec 3
  bytes : List Byte
  time : BitVec 48
deriving DecidableEq, Repr

/-- A flit as it reaches a receiver (R473). -/
structure FlitIn where
  payload : List Byte
  seq : BitVec 12
  kind : BitVec 4
  crcOk : Bool
deriving DecidableEq, Repr

/-- The instructions and the named steps of the FW1, one constructor for each row of the opcode table. -/
inductive Instr where
  | add (o : Opnd)
  | sub (o : Opnd)
  | and (o : Opnd)
  | or (o : Opnd)
  | xor (o : Opnd)
  | shl (o : Opnd)
  | shr (o : Opnd)
  | sar (o : Opnd)
  | slt (o : Opnd)
  | sltz (o : Opnd)
  | andn (o : Opnd)
  | orn (o : Opnd)
  | addi (o : Opnd)
  | andi (o : Opnd)
  | xori (o : Opnd)
  | slti (o : Opnd)
  | movi (o : Opnd)
  | shli (o : Opnd)
  | shri (o : Opnd)
  | sari (o : Opnd)
  | mov (o : Opnd)
  | sel (o : Opnd)
  | sext (o : Opnd)
  | zext (o : Opnd)
  | ld (o : Opnd)
  | st (o : Opnd)
  | ldw (o : Opnd)
  | stw (o : Opnd)
  | ldq (o : Opnd)
  | stq (o : Opnd)
  | lea (o : Opnd)
  | br (o : Opnd)
  | call (o : Opnd)
  | bz (o : Opnd)
  | bnz (o : Opnd)
  | bltz (o : Opnd)
  | bgez (o : Opnd)
  | beq (o : Opnd)
  | bne (o : Opnd)
  | blt (o : Opnd)
  | bge (o : Opnd)
  | nop (o : Opnd)
  | jr (o : Opnd)
  | callr (o : Opnd)
  | ret (o : Opnd)
  | endh (o : Opnd)
  | switch (o : Opnd)
  | loop (o : Opnd)
  | mul (o : Opnd)
  | mulh (o : Opnd)
  | mulhz (o : Opnd)
  | mulw (o : Opnd)
  | div (o : Opnd)
  | divz (o : Opnd)
  | rem (o : Opnd)
  | remz (o : Opnd)
  | clz (o : Opnd)
  | ctz (o : Opnd)
  | popc (o : Opnd)
  | brev (o : Opnd)
  | minz (o : Opnd)
  | maxz (o : Opnd)
  | abs (o : Opnd)
  | neg (o : Opnd)
  | min (o : Opnd)
  | max (o : Opnd)
  | bfx (o : Opnd)
  | bfxs (o : Opnd)
  | bfi (o : Opnd)
  | amoadd (o : Opnd)
  | amoand (o : Opnd)
  | amoor (o : Opnd)
  | amoxor (o : Opnd)
  | amomin (o : Opnd)
  | amomax (o : Opnd)
  | amoswp (o : Opnd)
  | amocas (o : Opnd)
  | lda (o : Opnd)
  | stl (o : Opnd)
  | fence (o : Opnd)
  | fenceL (o : Opnd)
  | fenceS (o : Opnd)
  | fenceT (o : Opnd)
  | fenceE (o : Opnd)
  | bar (o : Opnd)
  | waitev (o : Opnd)
  | pollev (o : Opnd)
  | prio (o : Opnd)
  | gang2 (o : Opnd)
  | gang4 (o : Opnd)
  | ungang (o : Opnd)
  | trap (o : Opnd)
  | brk (o : Opnd)
  | mfs (o : Opnd)
  | mts (o : Opnd)
  | eret (o : Opnd)
  | sleep (o : Opnd)
  | freqreq (o : Opnd)
  | rdtime (o : Opnd)
  | rdcyc (o : Opnd)
  | vadd (o : Opnd)
  | vsub (o : Opnd)
  | vmul (o : Opnd)
  | vdiv (o : Opnd)
  | vmin (o : Opnd)
  | vmax (o : Opnd)
  | vabs (o : Opnd)
  | vneg (o : Opnd)
  | vfma (o : Opnd)
  | vfms (o : Opnd)
  | vfnma (o : Opnd)
  | vfnms (o : Opnd)
  | vexp2 (o : Opnd)
  | vlog2 (o : Opnd)
  | vrcp (o : Opnd)
  | vrsqrt (o : Opnd)
  | vsin (o : Opnd)
  | vcos (o : Opnd)
  | vtanh (o : Opnd)
  | vsqrt (o : Opnd)
  | vand (o : Opnd)
  | vor (o : Opnd)
  | vxor (o : Opnd)
  | vshl (o : Opnd)
  | vshr (o : Opnd)
  | vsar (o : Opnd)
  | vadds (o : Opnd)
  | vsubs (o : Opnd)
  | vcmpeq (o : Opnd)
  | vcmplt (o : Opnd)
  | vcmple (o : Opnd)
  | vcmpne (o : Opnd)
  | vmov (o : Opnd)
  | vsel (o : Opnd)
  | vbcast (o : Opnd)
  | vextr (o : Opnd)
  | vcvt (o : Opnd)
  | vredsum (o : Opnd)
  | vredmin (o : Opnd)
  | vredmax (o : Opnd)
  | vscan (o : Opnd)
  | vperm (o : Opnd)
  | vcompress (o : Opnd)
  | vexpand (o : Opnd)
  | vrot (o : Opnd)
  | vld (o : Opnd)
  | vlds (o : Opnd)
  | vldg (o : Opnd)
  | vst (o : Opnd)
  | vsts (o : Opnd)
  | vstg (o : Opnd)
  | vldf (o : Opnd)
  | vstf (o : Opnd)
  | kand (o : Opnd)
  | kor (o : Opnd)
  | kxor (o : Opnd)
  | knot (o : Opnd)
  | kpopc (o : Opnd)
  | kfirst (o : Opnd)
  | kset (o : Opnd)
  | kmov (o : Opnd)
  | visect (o : Opnd)
  | vunion (o : Opnd)
  | vspaclr (o : Opnd)
  | vspaacc (o : Opnd)
  | vspaget (o : Opnd)
  | vspadrain (o : Opnd)
  | vpop (o : Opnd)
  | vpush (o : Opnd)
  | vdot4 (o : Opnd)
  | vdot2 (o : Opnd)
  | vcdot (o : Opnd)
  | vcdot4 (o : Opnd)
  | mma (o : Opnd)
  | mmaZ (o : Opnd)
  | mmac (o : Opnd)
  | mmacZ (o : Opnd)
  | mwload (o : Opnd)
  | mclr (o : Opnd)
  | mdrain (o : Opnd)
  | mwait (o : Opnd)
  | mstat (o : Opnd)
  | mwrr (o : Opnd)
  | cpset (o : Opnd)
  | cpgo (o : Opnd)
  | cpdone (o : Opnd)
  | cpwait (o : Opnd)
  | sbind (o : Opnd)
  | sbindw (o : Opnd)
  | sbindv (o : Opnd)
  | sbindvw (o : Opnd)
  | sunbind (o : Opnd)
  | sstat (o : Opnd)
  | bstop (o : Opnd)
  | sskip (o : Opnd)
  | wlaunch (o : Opnd)
  | wnext (o : Opnd)
  | wsteal (o : Opnd)
  | wstat (o : Opnd)
  | wjoin (o : Opnd)
  | wdone (o : Opnd)
  | qarrive (o : Opnd)
  | qwait (o : Opnd)
  | qstat (o : Opnd)
  | qcfg (o : Opnd)
  | sendv (o : Opnd)
  | sendt (o : Opnd)
  | sendg (o : Opnd)
  | sendc (o : Opnd)
  | recvv (o : Opnd)
  | recvt (o : Opnd)
  | recvg (o : Opnd)
  | peek (o : Opnd)
  | fwdc (o : Opnd)
  | proof (o : Opnd)
  | mail (o : Opnd)
  | mreply (o : Opnd)
  | mwaitf (o : Opnd)
  | dreq (o : Opnd)
  | xlate (o : Opnd)
  | bindh (o : Opnd)
  | bindhMail (o : Opnd)
  | bindhMlimit (o : Opnd)
  | pstat (o : Opnd)
  | pstatOutput (o : Opnd)
  | pstatMail (o : Opnd)
  | ctxsave (o : Opnd)
  | ctxload (o : Opnd)
  | engrd (o : Opnd)
  | engwr (o : Opnd)
  | qload (o : Opnd)
  | qsave (o : Opnd)
  | qmap (o : Opnd)
  | qunmap (o : Opnd)
  | fmload (o : Opnd)
  | fmswap (o : Opnd)
  | fmdrain (o : Opnd)
  | fmclear (o : Opnd)
  | tagbind (o : Opnd)
  | migrate (o : Opnd)
  | quoinrd (o : Opnd)
  | kload (o : Opnd)
  | clkplan (o : Opnd)
  | sleepWake (t : Nat) (c : Nat) (x : Nat)
  | resultReturn (t : Nat) (c : Nat) (x : Nat) (n : Nat)
  | forcedSwitch (t : Nat) (c : Nat)
  | contextAged (t : Nat) (c : Nat) (x : Nat)
  | trapEntry (t : Nat) (c : Nat) (x : Nat)
  | takeNotice (t : Nat) (c : Nat)
  | handlerBudget (t : Nat) (c : Nat) (x : Nat)
  | timer (t : Nat) (c : Nat)
  | matrixStep (t : Nat)
  | mwloadToken (t : Nat)
  | matrixCommandComplete (t : Nat) (c : Nat)
  | matrixOperand (t : Nat) (c : Nat)
  | matrixDataError (t : Nat) (c : Nat)
  | copyRound (t : Nat) (h : Nat)
  | copyRoundVoid (t : Nat) (h : Nat)
  | copyDataError (t : Nat) (h : Nat)
  | copyTransferComplete (t : Nat) (h : Nat)
  | streamElementRead (t : Nat) (c : Nat) (u : Nat)
  | streamRoundCommit (t : Nat) (c : Nat) (u : Nat)
  | streamFault (t : Nat) (c : Nat) (u : Nat)
  | walkerDispatch (t : Nat) (c : Nat)
  | walkerArbiterStep (t : Nat) (c : Nat)
  | stealAnswerArrival (n : Nat)
  | walkNotice (n : Nat)
  | autoStealRequest (t : Nat) (c : Nat)
  | retirementReport (n : Nat)
  | quireTurn (t : Nat) (q : Nat)
  | vectorUnitArrival (t : Nat) (q : Nat)
  | xlateShootdown (t : Nat) (c : Nat) (x : Nat)
  | tokenArrival (n : Nat)
  | firingStart (t : Nat)
  | colophonStep (t : Nat)
  | proofStep (t : Nat)
  | slotReturn (n : Nat)
  | mailArrival (n : Nat)
  | mailAnswer (n : Nat)
  | contextFreeNotice (t : Nat)
  | reservationLapse (t : Nat) (k : Nat)
  | mailWithdrawal (n : Nat)
  | noticeArrival (n : Nat)
  | dramRead (a : Nat) (k : Nat)
  | dramWrite (a : Nat) (k : Nat)
  | dramAmo (a : Nat) (k : Nat)
  | dramGather (a : Nat) (k : Nat)
  | dramFlush (a : Nat) (k : Nat)
  | dramReply (n : Nat)
  | channelSpareSwap (a : Nat) (h : Nat)
  | dupInvalidation (n : Nat)
  | dupAck (n : Nat)
  | dupCollapse (a : Nat) (k : Nat)
  | translationWalk (t : Nat) (va : Nat) (write : Bool)
  | shootdownAck (n : Nat)
  | lowMark (t : Nat)
  | rebalancerWindow (chase : Nat) (window : Nat)
  | migrationFreeze (chase : Nat)
  | migrationQuiesced (chase : Nat)
  | migrationRebind (chase : Nat)
  | stubForward (n : Nat)
  | seamArrival (n : Nat)
  | seamAck (n : Nat)
  | stubClose (chase : Nat)
  | engHold (t : Nat) (engine : Nat) (unit : Nat)
  | engRelease (t : Nat) (engine : Nat) (unit : Nat)
  | engAbandon (t : Nat) (engine : Nat) (unit : Nat)
  | engCancel (t : Nat) (engine : Nat) (unit : Nat)
  | engResume (t : Nat) (engine : Nat) (unit : Nat) (gen : (BitVec 32))
  | probeStep (t : Nat)
  | kick (galley : Nat) (tail : (BitVec 32))
  | kickPending (zone : Nat)
  | galleyAgeTick
  | packetAccept (slot : Nat)
  | acceptFault (slot : Nat)
  | galleyNop (galley : Nat) (packet : Packet)
  | impose (galley : Nat) (packet : Packet)
  | input (galley : Nat) (packet : Packet)
  | colophon (galley : Nat) (packet : Packet)
  | swap (galley : Nat) (packet : Packet)
  | shrink (galley : Nat) (packet : Packet)
  | release (galley : Nat) (packet : Packet)
  | barrier (galley : Nat) (packet : Packet)
  | cutComplete (chase : Nat)
  | rollback (chase : Nat)
  | loadShareTick (t : Nat)
  | watchdog (t : Nat) (dir : Nat)
  | stepChange (t : Nat)
  | alarmThrottle (alarm : Alarm)
  | throttleRelease
  | currentClamp (t : Nat) (current : Nat)
  | thermalTrip (celsius : Nat)
  | ballast (t : Nat)
  | coreClockGate (t : Nat) (c : Nat)
  | tileSleep (t : Nat)
  | tileWake (t : Nat)
  | stewardHeartbeat
  | stewardHung
  | clockHoldover (t : Nat)
  | timingToken (n : Nat)
  | timePortLoss
  | powerUpBoot (tests : SelfTest)
  | romRecovery (port : Nat) (image : (List Byte))
  | bileelWrite (port : Nat) (frame : Frame)
  | bileelRead (port : Nat) (frame : Frame)
  | bileelKick (port : Nat) (frame : Frame)
  | bileelAck (port : Nat) (frame : Frame)
  | completion (galley : Nat) (status : (BitVec 16)) (seq : (BitVec 32)) (index : (BitVec 32))
  | identity (port : Nat) (frame : Frame)
  | quote (port : Nat) (frame : Frame)
  | spareLog (port : Nat) (frame : Frame)
  | measureLog (port : Nat) (frame : Frame)
  | diag (port : Nat) (frame : Frame)
  | session (port : Nat) (frame : Frame)
  | image (port : Nat) (frame : Frame)
  | flashWrite (port : Nat) (frame : Frame)
  | svnCommit (port : Nat) (frame : Frame)
  | provision (port : Nat) (frame : Frame)
  | deploy (port : Nat) (frame : Frame)
  | return_ (port : Nat) (frame : Frame)
  | standby (port : Nat) (frame : Frame)
  | loadSteward (port : Nat) (frame : Frame)
  | debugRequest (port : Nat) (frame : Frame)
  | debugResponse (port : Nat) (frame : Frame)
  | timePort (port : Nat) (frame : Frame)
  | ingestFrame (port : Nat) (frame : EthFrame)
  | pauseResume (port : Nat) (ring : Nat)
  | ingestRingFault (port : Nat) (ring : Nat)
  | pfcReceived (port : Nat) (pause : (BitVec 8)) (quanta : (List Nat))
  | flitReceive (link : Nat) (flit : FlitIn)
  | nakRetransmit (link : Nat) (first : (BitVec 12))
  | laneFailure (link : Nat) (lane : Nat)
  | testLogicReset
  | extest (cells : (List Byte))
  | idcode
  | samplePreload (cells : (List Byte))
  | dbgreq (level : Nat)
  | dbgresp (key : (List Byte)) (sig : (List Byte))
  | trace (t : Nat) (item : Nat) (word : Nat)
  | halt (t : Nat) (c : Nat) (op : Nat)
  | bypass (bit : Bool)
  | tileLost (t : Nat)
  | dramActorLost (a : Nat)
  | softError (t : Nat) (space : Nat) (c : Nat) (unit : Nat) (bad : Bool)
  | tokenPoisoned (token : Nat) (corrected : Bool)
  | alarmClear (reason : Nat)
  | powerLoss (written : Nat)
  | zoneCapSet (zone : Nat) (cap : Nat) (clamp : Nat) (threshold : Nat)
  | heartbeatArrival (n : Nat)
  | syncMessage (port : Nat) (time : Nat)
  | edgeTimeMasterTick
  | portLinkUp (port : Nat)
  | droppedFrame (port : Nat) (length : Nat)
  | pauseRenew (port : Nat) (ring : Nat)
  | foldReservationLapse (chase : Nat)
  | hostBackingReply (n : Nat) (data : (List Byte))
  | internalError (t : Nat) (c : Nat) (reason : Nat)
  | ktimerWrite (t : Nat) (c : Nat) (x : Nat) (value : Word)
  | npendClear (t : Nat) (c : Nat) (x : Nat) (value : Word)
  | freqLockWrite (t : Nat) (c : Nat) (x : Nat) (value : Word)
  | fmodeWrite (t : Nat) (c : Nat) (x : Nat) (value : Word)
deriving DecidableEq, Repr

/-- Page, major and operands of an encoded instruction; none for a step that no word encodes. -/
def Instr.enc : Instr → Option (Nat × Nat × Opnd)
  | .add o => some (0, 0, o)
  | .sub o => some (0, 0, o)
  | .and o => some (0, 0, o)
  | .or o => some (0, 0, o)
  | .xor o => some (0, 1, o)
  | .shl o => some (0, 1, o)
  | .shr o => some (0, 1, o)
  | .sar o => some (0, 1, o)
  | .slt o => some (0, 2, o)
  | .sltz o => some (0, 2, o)
  | .andn o => some (0, 2, o)
  | .orn o => some (0, 2, o)
  | .addi o => some (0, 3, o)
  | .andi o => some (0, 5, o)
  | .xori o => some (0, 6, o)
  | .slti o => some (0, 10, o)
  | .movi o => some (0, 4, o)
  | .shli o => some (0, 7, o)
  | .shri o => some (0, 8, o)
  | .sari o => some (0, 9, o)
  | .mov o => some (0, 11, o)
  | .sel o => some (0, 11, o)
  | .sext o => some (0, 11, o)
  | .zext o => some (0, 11, o)
  | .ld o => some (0, 12, o)
  | .st o => some (0, 13, o)
  | .ldw o => some (0, 14, o)
  | .stw o => some (0, 15, o)
  | .ldq o => some (0, 16, o)
  | .stq o => some (0, 17, o)
  | .lea o => some (0, 18, o)
  | .br o => some (0, 19, o)
  | .call o => some (0, 19, o)
  | .bz o => some (0, 20, o)
  | .bnz o => some (0, 21, o)
  | .bltz o => some (0, 22, o)
  | .bgez o => some (0, 23, o)
  | .beq o => some (0, 24, o)
  | .bne o => some (0, 24, o)
  | .blt o => some (0, 24, o)
  | .bge o => some (0, 24, o)
  | .nop o => some (0, 25, o)
  | .jr o => some (0, 25, o)
  | .callr o => some (0, 25, o)
  | .ret o => some (0, 25, o)
  | .endh o => some (0, 25, o)
  | .switch o => some (0, 25, o)
  | .loop o => some (0, 26, o)
  | .mul o => some (1, 0, o)
  | .mulh o => some (1, 0, o)
  | .mulhz o => some (1, 0, o)
  | .mulw o => some (1, 0, o)
  | .div o => some (1, 1, o)
  | .divz o => some (1, 1, o)
  | .rem o => some (1, 1, o)
  | .remz o => some (1, 1, o)
  | .clz o => some (1, 2, o)
  | .ctz o => some (1, 2, o)
  | .popc o => some (1, 2, o)
  | .brev o => some (1, 2, o)
  | .minz o => some (1, 3, o)
  | .maxz o => some (1, 3, o)
  | .abs o => some (1, 3, o)
  | .neg o => some (1, 3, o)
  | .min o => some (1, 3, o)
  | .max o => some (1, 3, o)
  | .bfx o => some (1, 4, o)
  | .bfxs o => some (1, 4, o)
  | .bfi o => some (1, 4, o)
  | .amoadd o => some (1, 5, o)
  | .amoand o => some (1, 5, o)
  | .amoor o => some (1, 5, o)
  | .amoxor o => some (1, 5, o)
  | .amomin o => some (1, 6, o)
  | .amomax o => some (1, 6, o)
  | .amoswp o => some (1, 6, o)
  | .amocas o => some (1, 6, o)
  | .lda o => some (1, 7, o)
  | .stl o => some (1, 8, o)
  | .fence o => some (1, 9, o)
  | .fenceL o => some (1, 9, o)
  | .fenceS o => some (1, 9, o)
  | .fenceT o => some (1, 9, o)
  | .fenceE o => some (1, 9, o)
  | .bar o => some (1, 10, o)
  | .waitev o => some (1, 11, o)
  | .pollev o => some (1, 11, o)
  | .prio o => some (1, 12, o)
  | .gang2 o => some (1, 13, o)
  | .gang4 o => some (1, 13, o)
  | .ungang o => some (1, 13, o)
  | .trap o => some (1, 14, o)
  | .brk o => some (1, 14, o)
  | .mfs o => some (1, 15, o)
  | .mts o => some (1, 16, o)
  | .eret o => some (1, 17, o)
  | .sleep o => some (1, 18, o)
  | .freqreq o => some (1, 19, o)
  | .rdtime o => some (1, 20, o)
  | .rdcyc o => some (1, 20, o)
  | .vadd o => some (2, 0, o)
  | .vsub o => some (2, 0, o)
  | .vmul o => some (2, 0, o)
  | .vdiv o => some (2, 0, o)
  | .vmin o => some (2, 1, o)
  | .vmax o => some (2, 1, o)
  | .vabs o => some (2, 1, o)
  | .vneg o => some (2, 1, o)
  | .vfma o => some (2, 2, o)
  | .vfms o => some (2, 2, o)
  | .vfnma o => some (2, 2, o)
  | .vfnms o => some (2, 2, o)
  | .vexp2 o => some (2, 3, o)
  | .vlog2 o => some (2, 3, o)
  | .vrcp o => some (2, 3, o)
  | .vrsqrt o => some (2, 3, o)
  | .vsin o => some (2, 3, o)
  | .vcos o => some (2, 3, o)
  | .vtanh o => some (2, 3, o)
  | .vsqrt o => some (2, 3, o)
  | .vand o => some (2, 4, o)
  | .vor o => some (2, 4, o)
  | .vxor o => some (2, 4, o)
  | .vshl o => some (2, 4, o)
  | .vshr o => some (2, 4, o)
  | .vsar o => some (2, 4, o)
  | .vadds o => some (2, 4, o)
  | .vsubs o => some (2, 4, o)
  | .vcmpeq o => some (2, 5, o)
  | .vcmplt o => some (2, 5, o)
  | .vcmple o => some (2, 5, o)
  | .vcmpne o => some (2, 5, o)
  | .vmov o => some (2, 6, o)
  | .vsel o => some (2, 6, o)
  | .vbcast o => some (2, 6, o)
  | .vextr o => some (2, 6, o)
  | .vcvt o => some (2, 7, o)
  | .vredsum o => some (2, 8, o)
  | .vredmin o => some (2, 8, o)
  | .vredmax o => some (2, 8, o)
  | .vscan o => some (2, 8, o)
  | .vperm o => some (2, 9, o)
  | .vcompress o => some (2, 9, o)
  | .vexpand o => some (2, 9, o)
  | .vrot o => some (2, 9, o)
  | .vld o => some (2, 10, o)
  | .vlds o => some (2, 10, o)
  | .vldg o => some (2, 10, o)
  | .vst o => some (2, 11, o)
  | .vsts o => some (2, 11, o)
  | .vstg o => some (2, 11, o)
  | .vldf o => some (2, 10, o)
  | .vstf o => some (2, 11, o)
  | .kand o => some (2, 12, o)
  | .kor o => some (2, 12, o)
  | .kxor o => some (2, 12, o)
  | .knot o => some (2, 12, o)
  | .kpopc o => some (2, 12, o)
  | .kfirst o => some (2, 12, o)
  | .kset o => some (2, 12, o)
  | .kmov o => some (2, 12, o)
  | .visect o => some (2, 13, o)
  | .vunion o => some (2, 13, o)
  | .vspaclr o => some (2, 14, o)
  | .vspaacc o => some (2, 14, o)
  | .vspaget o => some (2, 14, o)
  | .vspadrain o => some (2, 14, o)
  | .vpop o => some (2, 15, o)
  | .vpush o => some (2, 15, o)
  | .vdot4 o => some (2, 16, o)
  | .vdot2 o => some (2, 16, o)
  | .vcdot o => some (2, 16, o)
  | .vcdot4 o => some (2, 16, o)
  | .mma o => some (3, 0, o)
  | .mmaZ o => some (3, 0, o)
  | .mmac o => some (3, 1, o)
  | .mmacZ o => some (3, 1, o)
  | .mwload o => some (3, 2, o)
  | .mclr o => some (3, 3, o)
  | .mdrain o => some (3, 3, o)
  | .mwait o => some (3, 3, o)
  | .mstat o => some (3, 3, o)
  | .mwrr o => some (3, 4, o)
  | .cpset o => some (4, 0, o)
  | .cpgo o => some (4, 1, o)
  | .cpdone o => some (4, 2, o)
  | .cpwait o => some (4, 3, o)
  | .sbind o => some (4, 4, o)
  | .sbindw o => some (4, 4, o)
  | .sbindv o => some (4, 4, o)
  | .sbindvw o => some (4, 4, o)
  | .sunbind o => some (4, 5, o)
  | .sstat o => some (4, 5, o)
  | .bstop o => some (4, 6, o)
  | .sskip o => some (4, 7, o)
  | .wlaunch o => some (5, 0, o)
  | .wnext o => some (5, 1, o)
  | .wsteal o => some (5, 2, o)
  | .wstat o => some (5, 3, o)
  | .wjoin o => some (5, 3, o)
  | .wdone o => some (5, 3, o)
  | .qarrive o => some (5, 4, o)
  | .qwait o => some (5, 4, o)
  | .qstat o => some (5, 4, o)
  | .qcfg o => some (5, 4, o)
  | .sendv o => some (6, 0, o)
  | .sendt o => some (6, 0, o)
  | .sendg o => some (6, 0, o)
  | .sendc o => some (6, 0, o)
  | .recvv o => some (6, 1, o)
  | .recvt o => some (6, 1, o)
  | .recvg o => some (6, 1, o)
  | .peek o => some (6, 1, o)
  | .fwdc o => some (6, 2, o)
  | .proof o => some (6, 3, o)
  | .mail o => some (6, 4, o)
  | .mreply o => some (6, 4, o)
  | .mwaitf o => some (6, 4, o)
  | .dreq o => some (6, 5, o)
  | .xlate o => some (6, 5, o)
  | .bindh o => some (6, 6, o)
  | .bindhMail o => some (6, 6, o)
  | .bindhMlimit o => some (6, 6, o)
  | .pstat o => some (6, 6, o)
  | .pstatOutput o => some (6, 6, o)
  | .pstatMail o => some (6, 6, o)
  | .ctxsave o => some (7, 0, o)
  | .ctxload o => some (7, 0, o)
  | .engrd o => some (7, 1, o)
  | .engwr o => some (7, 1, o)
  | .qload o => some (7, 2, o)
  | .qsave o => some (7, 2, o)
  | .qmap o => some (7, 2, o)
  | .qunmap o => some (7, 2, o)
  | .fmload o => some (7, 3, o)
  | .fmswap o => some (7, 3, o)
  | .fmdrain o => some (7, 3, o)
  | .fmclear o => some (7, 3, o)
  | .tagbind o => some (7, 4, o)
  | .migrate o => some (7, 5, o)
  | .quoinrd o => some (7, 6, o)
  | .kload o => some (7, 7, o)
  | .clkplan o => some (7, 8, o)
  | .sleepWake _ _ _ => none
  | .resultReturn _ _ _ _ => none
  | .forcedSwitch _ _ => none
  | .contextAged _ _ _ => none
  | .trapEntry _ _ _ => none
  | .takeNotice _ _ => none
  | .handlerBudget _ _ _ => none
  | .timer _ _ => none
  | .matrixStep _ => none
  | .mwloadToken _ => none
  | .matrixCommandComplete _ _ => none
  | .matrixOperand _ _ => none
  | .matrixDataError _ _ => none
  | .copyRound _ _ => none
  | .copyRoundVoid _ _ => none
  | .copyDataError _ _ => none
  | .copyTransferComplete _ _ => none
  | .streamElementRead _ _ _ => none
  | .streamRoundCommit _ _ _ => none
  | .streamFault _ _ _ => none
  | .walkerDispatch _ _ => none
  | .walkerArbiterStep _ _ => none
  | .stealAnswerArrival _ => none
  | .walkNotice _ => none
  | .autoStealRequest _ _ => none
  | .retirementReport _ => none
  | .quireTurn _ _ => none
  | .vectorUnitArrival _ _ => none
  | .xlateShootdown _ _ _ => none
  | .tokenArrival _ => none
  | .firingStart _ => none
  | .colophonStep _ => none
  | .proofStep _ => none
  | .slotReturn _ => none
  | .mailArrival _ => none
  | .mailAnswer _ => none
  | .contextFreeNotice _ => none
  | .reservationLapse _ _ => none
  | .mailWithdrawal _ => none
  | .noticeArrival _ => none
  | .dramRead _ _ => none
  | .dramWrite _ _ => none
  | .dramAmo _ _ => none
  | .dramGather _ _ => none
  | .dramFlush _ _ => none
  | .dramReply _ => none
  | .channelSpareSwap _ _ => none
  | .dupInvalidation _ => none
  | .dupAck _ => none
  | .dupCollapse _ _ => none
  | .translationWalk _ _ _ => none
  | .shootdownAck _ => none
  | .lowMark _ => none
  | .rebalancerWindow _ _ => none
  | .migrationFreeze _ => none
  | .migrationQuiesced _ => none
  | .migrationRebind _ => none
  | .stubForward _ => none
  | .seamArrival _ => none
  | .seamAck _ => none
  | .stubClose _ => none
  | .engHold _ _ _ => none
  | .engRelease _ _ _ => none
  | .engAbandon _ _ _ => none
  | .engCancel _ _ _ => none
  | .engResume _ _ _ _ => none
  | .probeStep _ => none
  | .kick _ _ => none
  | .kickPending _ => none
  | .galleyAgeTick => none
  | .packetAccept _ => none
  | .acceptFault _ => none
  | .galleyNop _ _ => none
  | .impose _ _ => none
  | .input _ _ => none
  | .colophon _ _ => none
  | .swap _ _ => none
  | .shrink _ _ => none
  | .release _ _ => none
  | .barrier _ _ => none
  | .cutComplete _ => none
  | .rollback _ => none
  | .loadShareTick _ => none
  | .watchdog _ _ => none
  | .stepChange _ => none
  | .alarmThrottle _ => none
  | .throttleRelease => none
  | .currentClamp _ _ => none
  | .thermalTrip _ => none
  | .ballast _ => none
  | .coreClockGate _ _ => none
  | .tileSleep _ => none
  | .tileWake _ => none
  | .stewardHeartbeat => none
  | .stewardHung => none
  | .clockHoldover _ => none
  | .timingToken _ => none
  | .timePortLoss => none
  | .powerUpBoot _ => none
  | .romRecovery _ _ => none
  | .bileelWrite _ _ => none
  | .bileelRead _ _ => none
  | .bileelKick _ _ => none
  | .bileelAck _ _ => none
  | .completion _ _ _ _ => none
  | .identity _ _ => none
  | .quote _ _ => none
  | .spareLog _ _ => none
  | .measureLog _ _ => none
  | .diag _ _ => none
  | .session _ _ => none
  | .image _ _ => none
  | .flashWrite _ _ => none
  | .svnCommit _ _ => none
  | .provision _ _ => none
  | .deploy _ _ => none
  | .return_ _ _ => none
  | .standby _ _ => none
  | .loadSteward _ _ => none
  | .debugRequest _ _ => none
  | .debugResponse _ _ => none
  | .timePort _ _ => none
  | .ingestFrame _ _ => none
  | .pauseResume _ _ => none
  | .ingestRingFault _ _ => none
  | .pfcReceived _ _ _ => none
  | .flitReceive _ _ => none
  | .nakRetransmit _ _ => none
  | .laneFailure _ _ => none
  | .testLogicReset => none
  | .extest _ => none
  | .idcode => none
  | .samplePreload _ => none
  | .dbgreq _ => none
  | .dbgresp _ _ => none
  | .trace _ _ _ => none
  | .halt _ _ _ => none
  | .bypass _ => none
  | .tileLost _ => none
  | .dramActorLost _ => none
  | .softError _ _ _ _ _ => none
  | .tokenPoisoned _ _ => none
  | .alarmClear _ => none
  | .powerLoss _ => none
  | .zoneCapSet _ _ _ _ => none
  | .heartbeatArrival _ => none
  | .syncMessage _ _ => none
  | .edgeTimeMasterTick => none
  | .portLinkUp _ => none
  | .droppedFrame _ _ => none
  | .pauseRenew _ _ => none
  | .foldReservationLapse _ => none
  | .hostBackingReply _ _ => none
  | .internalError _ _ _ => none
  | .ktimerWrite _ _ _ _ => none
  | .npendClear _ _ _ _ => none
  | .freqLockWrite _ _ _ _ => none
  | .fmodeWrite _ _ _ _ => none

end Sys2Proof
end

