-- ==== Sys2Proof/Machine/StateModule.lean ====
section
/-! DEFINITION. The state of the rebalancers, the galley service, the formes and chases, the clock and power engine, the root
of trust, the Ethernet ports and the Alason links (chapters 14 to 19 of spec/), as plain data. -/

namespace Sys2Proof.Machine

/-- A migration in progress (R377, R386): its step 1 to 7, source and destination tiles, member tag, latched debts by feeding
port (tile × 16 + port), seams not yet acknowledged, and the context that waits for its end, if MIGRATE ordered it. -/
structure Migration where
  step : Nat
  src : Nat
  dst : Nat
  tag : Tag
  /-- latched debts by feeding port, 16 × tile + port, and the seq that each such port had reached at step 5 (R377, R378) -/
  debts : Sparse Nat
  sent : Sparse (BitVec 32)
  seams : List Nat
  by_ : Option (Nat × Nat × Nat)
deriving DecidableEq, Repr

/-- A chase's rebalancer (R372, R386). -/
structure Rebalancer where
  word : Word
  /-- consecutive windows at or above hi, by tile -/
  windows : Sparse Nat
  cool : Sparse Nat
  migration : Option Migration
  /-- the last window whose reports it has taken, as `Gauge.window` numbers them (R374) -/
  seen : Nat
deriving DecidableEq, Repr

/-- A galley entry of the always-on island (R388). -/
structure GalleyEntry where
  en : Bool
  head : BitVec 32
  tail : BitVec 32
  age : BitVec 8
  pending : Bool
  mapped : Bool
  slot : BitVec 7
  zone : BitVec 2
  prio : BitVec 4
  cap : BitVec 5
  /-- the Ethernet port and the session through which it was last kicked (R467) -/
  via : Option (Nat × Nat)
deriving DecidableEq, Repr

/-- A galley slot (R387, R388, R394, R396). -/
structure GalleySlot where
  ring : Nat
  rsize : Nat
  chase : Nat
  galley : Nat
  mapped : Bool
  /-- the fault that holds an acceptance: virtual address and cause (R396) -/
  fault : Option (Nat × Cause)
  /-- an acceptance has advanced head and waits for an event entry: the record to write -/
  pendRec : Option Record
  /-- the control item's hold (command 1) stands -/
  stopped : Bool
  /-- QUNMAP waits for the slot's records to be removed, and nothing more is accepted (R400) -/
  unmapping : Bool
  /-- packets accepted since the slot was mapped -/
  count : Nat
deriving DecidableEq, Repr

/-- A command accepted and not completed (R394): its galley and packet index, its record's status, and where its snapshot lies: the
service tile and the T address of the area; and the chase of its slot. -/
structure OpenCmd where
  galley : Nat
  index : BitVec 32
  status : BitVec 16
  tile : Nat
  area : Nat
  chase : Nat
deriving DecidableEq, Repr

/-- The galley service (R387, R392, R405). -/
structure GalleyService where
  entries : Sparse GalleyEntry
  slots : Sparse GalleySlot
  /-- notice queues by front-end zone index, oldest first -/
  queues : Sparse (List Nat)
  tableBase : Nat
  serviceTags : Sparse Tag
  snapBases : Sparse Nat
  /-- reference time up to which the ages are counted (R393) -/
  agedAt : Nat
  /-- commands accepted and not completed, oldest first (R390, R394) -/
  open_ : List OpenCmd
  /-- commands that the micro-kernel has begun and not completed, by galley -/
  jobs : List (Nat × Packet)
  /-- kicks that an aperture has accepted and the island has not acted on: galley and tail, oldest first (R391) -/
  kicks : List (Nat × BitVec 32)
deriving DecidableEq, Repr

/-! ## Formes and chases (chapter 16) -/

/-- A data range of a tile image: its first address and its bytes (R413). -/
abbrev DataRange := Nat × List Byte

/-- What a tile image carries (R413, R417). Its tags are as they stand in the file; the loader relocates them (R416). -/
structure TileImage where
  lx : Nat
  ly : Nat
  actor : Nat
  member : Nat
  code : List DataRange
  tdata : List DataRange
  adata : List DataRange
  /-- T address and bytes of the actor's state area (R76, R427) -/
  state : Nat × Nat
  /-- T and A addresses of the tags that the data ranges hold: the relocation list's part for them (R413) -/
  tagsT : List Nat
  tagsA : List Nat
  inputs : Sparse InPort
  outputs : Sparse OutPort
  desc : ActorDesc
  mails : Sparse MailBinding
  /-- quire descriptors as R263 reads them: the number held by their 16 bytes -/
  quires : Sparse Nat
  /-- window descriptors by core × 16 + number -/
  windows : Sparse Word
  slotTable : List Nat
  weights : List Nat
  /-- forme inputs that end here: input port and number (R413, R428) -/
  formeInputs : List (Nat × Nat)
  /-- file offset of the field that FORME_IMAGE names where the image is rejected (R414) -/
  offset : Nat
deriving DecidableEq, Repr

/-- A tile of a placement: its physical tile, logical place, actor (relative to the forme), member, and the marks of R416. -/
structure Placed where
  tile : Nat
  lx : Nat
  ly : Nat
  actor : Nat
  member : Nat
  spare : Bool
  moved : Bool
deriving DecidableEq, Repr

/-- A record of a migration map (R413). -/
structure MapRange where
  actor : Nat
  pin : Bool
  all : Bool
  member : Nat
  base : Nat
  length : Nat
deriving DecidableEq, Repr

/-- A chosen placement (R415, R419). -/
structure Choice where
  file : Nat
  index : Nat
  grade : Nat
  fold : Nat
  abase : Nat
  actors : Nat
  inputs : Nat
  rect : Nat
  tiles : List Placed
  ranges : List MapRange
deriving DecidableEq, Repr

/-- What is in progress on a chase (R418, status 4). -/
inductive Work where
  | none
  | drain (discard colophon : Bool)
deriving DecidableEq, Repr

/-- A forme input (R413, R426, R428): its consumer, the seq of its next token, its free slots, level-0 colophons sent since the
last mark, its log, and whether the galley slots that feed it are held. -/
structure FormeInput where
  tag : Tag
  port : Nat
  seq : BitVec 32
  slots : Nat
  colophons : Nat
  /-- the cut of the last proof mark sent -/
  cut : BitVec 32
  /-- entries logged since the swap, and the first of them that the ring keeps; each mark's entry, by cut -/
  logNext : Nat
  logFirst : Nat
  marks : Sparse Nat
  /-- tokens logged and not yet sent, oldest first: they wait for a slot -/
  waiting : List Tok
  /-- a drain probe is to follow the next level-0 colophon, and has followed it (R421) -/
  probeDue : Bool
  heldAt : Bool
  /-- front-end zone of the galley that feeds it (R390) -/
  zone : Nat
deriving DecidableEq, Repr

/-- What the device keeps of a chase beside its CCB (R411, R419, R421, R425, R426, R431). -/
structure Chase where
  /-- physical address of its CCB, once a FORME instruction has named it -/
  ccb : Option Nat
  run : Option Choice
  loaded : Option Choice
  work : Work
  /-- the FORME instructions of the chase have been acted on by these contexts and wait for the chase: (tile, core, ctx) -/
  by_ : Option (Nat × Nat × Nat)
  inputs : Sparse FormeInput
  /-- tiles reserved after a shrink, and the reference time at which the reservation lapses -/
  reserved : List Nat
  reservedUntil : Nat
  /-- tiles declared lost or silent since the last rollback -/
  dead : List Nat
  /-- a condition of R429 has struck the chase, and its rollback has not begun -/
  struck : Bool
  ended : Bool
deriving DecidableEq, Repr

/-! ## Clock and power (chapter 17) -/

/-- A watchdog of a neighbour (R449). -/
structure Watch where
  counted : Nat
  at_ : Nat
  slowed : Bool
  raised : Bool
deriving DecidableEq, Repr

/-- A tile's clock and power engine (R434 to R444). -/
structure TileClock where
  step : Nat
  tcap : Nat
  zcap : Nat
  thr : Bool
  lock : Bool
  src : BitVec 2
  hold : Bool
  depth : Nat
  /-- the loaded plan, word by word (R442 item 1) -/
  plan : List Word
  trace : Sparse Word
  total : BitVec 56
  clamp : Nat
  stepAt : Nat
  /-- correction of this tile's reference time against `State.now`, in ns, the correction still to be made at the permitted rate,
  and the time that rate is counted from (R441) -/
  offset : Int
  aim : Int
  correctedAt : Nat
  watch : Sparse Watch
  /-- task counts last heard of neighbours, by direction (R408) -/
  tasks : Sparse Nat
  ballastUntil : Nat
  idleSince : Nat
  asleep : Bool
  /-- reference time of the last sharing of tasks (R408), and from which the current clamp counts its next 1 µs (R444) -/
  sharedAt : Nat
  clampedAt : Nat
deriving DecidableEq, Repr

/-- The power steward and the module's alarms (R443 to R448). -/
structure Power where
  stewardRunning : Bool
  hung : Bool
  updating : Bool
  heartbeatAt : Nat
  alarmExternal : Bool
  alarmThermal : Bool
  alarmSteward : Bool
  clearedAt : Nat
  throttled : Bool
  threshold : Nat
  tripped : Bool
  zcaps : Sparse Nat
deriving DecidableEq, Repr

/-- The edge time master (R441). -/
structure TimeMaster where
  port : Option Nat
  lastSync : Nat
  offset : Int
  freeRunning : Bool
  lastToken : Nat
deriving DecidableEq, Repr

/-! ## Root of trust (chapter 18) -/

/-- The fuse array (R450). -/
structure Fuses where
  life : BitVec 3
  mgrade : BitVec 2
  serial : BitVec 64
  dsecret : BitVec 256
  skhash : BitVec 512
  dahash : BitVec 512
  svn : BitVec 64
  defects : List (BitVec 16)
deriving DecidableEq, Repr

/-- The steps of boot at which the module can stand (R454, R455). -/
inductive Phase where
  | powerUp
  | romRecovery
  | gradeNone
  | awaitImages
  | released
  | standby
deriving DecidableEq, Repr

/-- A download under way (R465 IMAGE, FLASH_WRITE, LOAD_STEWARD): its command code, total length and bytes so far. -/
structure Download where
  code : Nat
  total : Nat
  bytes : List Byte
deriving DecidableEq, Repr

/-- The root of trust (R450 to R461). -/
structure Root where
  phase : Phase
  fuses : Fuses
  flash : List Byte
  /-- the stage that booted, in SRAM -/
  stage : List Byte
  kernel : List Byte
  steward : List Byte
  kernelOk : Bool
  stewardOk : Bool
  m : BitVec 512
  log : List (List Byte)
  download : Option Download
  bootGrade : Nat
  counts : List Nat
  defects : List (BitVec 16)
  debug : Nat
  /-- the level that a challenge asks for, and its nonce, which answers one attempt (R459) -/
  nonce : Option (Nat × List Byte)
  keysLocked : Bool
  /-- a verified stage whose write to the flash has begun (R453), and the port and tag of the FLASH_WRITE to answer -/
  writing : Option (List Byte × Option (Nat × Nat))
deriving DecidableEq, Repr

/-- The JTAG port (R461): its instruction register, the boundary-scan cells and the bypass register. -/
structure Jtag where
  ir : BitVec 8
  cells : List Byte
  drive : Bool
  bypass : Bool
  out : List Byte
deriving DecidableEq, Repr

/-! ## Ethernet ports and Alason links (chapter 19) -/

/-- A Bileel session (R466, R467): its table word, the next expected seq, the last of its own frames that the host has acknowledged, and
the seq of its next frame. -/
structure Session where
  word : Word
  expect : BitVec 32
  acked : BitVec 32
  seq : BitVec 32
deriving DecidableEq, Repr

/-- A frame that the module has sent to the host (R463 to R465). -/
structure FrameOut where
  port : Nat
  session : Nat
  op : Nat
  seq : BitVec 32
  ack : BitVec 32
  addr : Word
  body : List Byte
deriving DecidableEq, Repr

/-- An Ethernet port (R462, R468 to R471). -/
structure EthPort where
  linkUp : Bool
  syncSeen : Bool
  sessions : Sparse Session
  rings : Sparse Word
  /-- rings whose pause stands, with the time of the last pause frame; rings in a period of drops -/
  pausing : Sparse Nat
  dropping : List Nat
  /-- records that a fault keeps from being written, by ring; the rings held for it, oldest first, with their faults (R471) -/
  stuck : Sparse (List Byte)
  held : List (Nat × Nat × Cause)
  /-- until when a received pause holds transmission, by priority, and the frames that it holds back, oldest first (R462) -/
  pausedTo : Sparse Nat
  outbox : List FrameOut
  counters : Sparse Word
  config : Sparse Word
deriving DecidableEq, Repr

/-- A flit (R473). -/
structure Flit where
  seq : BitVec 12
  kind : BitVec 4
  payload : List Byte
deriving DecidableEq, Repr

/-- An Alason link (R473, R475). -/
structure Link where
  lanes : Nat
  spareFree : Bool
  failed : List Nat
  rxNext : BitVec 12
  txNext : BitVec 12
  retry : List Flit
  /-- flits sent or resent, oldest first, that the other end has not yet taken -/
  wire : List Flit
  nak : Option (BitVec 12)
  /-- payloads accepted that do not yet make a whole token -/
  partialTok : List Byte
  /-- accepted tokens that are for no arc, oldest first -/
  inbox : List (List Byte)
  /-- tokens that wait for the link to be up -/
  waiting : List (List Byte)
deriving DecidableEq, Repr

end Sys2Proof.Machine
end

