-- ==== Sys2Proof/Machine/StateTile.lean ====
section
/-! DEFINITION. A core, a tile, and what is in flight between the parts of the module (chapters 01, 05, 06 and 12 of spec/),
as plain data. -/

namespace Sys2Proof.Machine

/-- A local memory: its bytes, and the 16-byte units marked uncorrectable (R106), each by its index, rising. -/
structure LocalMem where
  bytes : Memory
  bad : List Nat
deriving DecidableEq, Repr

/-- A core's issue state (R31, R135): the context whose switch group is under way, whether an
aged group has been served since the last class-3 group, and its clock gate. -/
structure IssueState where
  current : Option Nat
  agedServed : Bool
  idle : Nat
  gated : Bool
  /-- debug: halted, and to halt again after one instruction (R458, R461) -/
  halted : Bool
  stepping : Bool
deriving DecidableEq, Repr

/-- A core (R27, R100, R131, R179). -/
structure Core where
  ctxs : Sparse Ctx
  issue : IssueState
  evq : EventQueue
  tvec : BitVec 17
  ktimer : Word
  npend : Word
  /-- the `%einfo` of each pending notice, by `%npend` bit (R185) -/
  ninfo : Sparse Word
  wdesc : Sparse Word
  cyc : Word
  freqReq : Nat
  a : LocalMem
  c : LocalMem
  w : LocalMem
  streams : Sparse StreamUnit
  walker : Walker
  spa : Spa
  mq : MQueue
deriving DecidableEq, Repr

/-- A stub left by a migration (R377, R378): the destination tile and the moved tag. -/
structure Stub where
  dst : Nat
  tag : Tag
deriving DecidableEq, Repr

/-- The port engine of a tile (R317 to R344). -/
structure PortEngine where
  inputs : Sparse InPort
  outputs : Sparse OutPort
  desc : ActorDesc
  mails : Sparse MailBinding
  firing : Option Firing
  /-- the refusal list, oldest first: sender and the tag that its mail named (R340) -/
  refusals : List (Sender × Tag)
  reservations : List Reservation
  replies : List ReplyOwed
  /-- the next mail identifier of each core (R338) -/
  mailIds : Sparse (BitVec 32)
  probed : Bool
  /-- frozen: by ENGWR, or by step 1 of a migration (R377, R405) -/
  held : Bool
  frozen : Bool
  stub : Option Stub
  /-- the cut whose proof step this tile last performed -/
  proofAt : BitVec 32
deriving DecidableEq, Repr

/-- The engines a tile's cores share (chapters 01, 06, 07, 09, 11 and 13). -/
structure TileEngines where
  quoins : Sparse Quoin
  channels : Sparse Channel
  quires : Sparse Quire
  barriers : Sparse Barrier
  gangs : List Gang
  arbiter : MArbiter
  /-- entries of the slot tables by 32 × unit + entry, the units in the order of R404; an entry not listed is as at reset (R226) -/
  slotTable : Sparse Nat
  /-- units held by their control item, by engine × 256 + unit (R405) -/
  holds : List Nat
  /-- words that ENGWR has written to the items of held units, which take effect at the release: by engine, unit, item and word, 8, 8, 8
  and 16 bits (R404, R405) -/
  written : Sparse Word
  xnode : Xnode
deriving DecidableEq, Repr

/-- A tile's place in the module (R11 to R18, R415 to R422). -/
structure TilePlace where
  live : Bool
  working : Bool
  chase : Option Nat
  member : Tag
  shadow : Option TileImage
  /-- T address and bytes of its actor's state area (R427) -/
  stateArea : Nat × Nat
  /-- tokens discarded here because TAGBIND moved their tag, and other entries of the fault log -/
  faultLog : List Word
  /-- the micro-kernel's queue of movable tasks, oldest first: each the words of its record (R364, R408) -/
  tasks : List (List Word)
deriving DecidableEq, Repr

/-- What a tile measures in the rebalancer's windows (R373): of the window under way, each port's occupancy as tokens × ns and the lowest
step; of the last whole window, its number, counted in 64 µs of the tile's `%rtime`, the occupancy in sixteenths of a token, and the lowest step. -/
structure Gauge where
  load : Sparse Nat
  low : Nat
  window : Nat
  occ : Nat
  lowest : Nat
deriving DecidableEq, Repr

/-- A tile (R1, R100). -/
structure Tile where
  place : TilePlace
  t : LocalMem
  x : Memory
  /-- the 16-byte units of X marked uncorrectable (R106), rising -/
  xbad : List Nat
  cores : Sparse Core
  eng : TileEngines
  port : PortEngine
  clk : TileClock
  gauge : Gauge
deriving DecidableEq, Repr

/-! ## Between the parts -/

/-- A message in flight between two parts of the module. An event that delivers one names its index in `State.net`. -/
inductive Msg where
  /-- an arc token (R316) on its way to a tile, for a consumer's tag and input port -/
  | token (tile : Nat) (dst : Tag) (dport : Nat) (tok : Tok)
  /-- a slot-return token (R319) on its way to a tile, for an output port of a producer's tag: the seq of the token whose slot it is, and the
  tile that consumed it -/
  | slot (tile : Nat) (tag : Tag) (port : Nat) (seq : BitVec 32) (consumer : Nat)
  /-- the slot of a forme input's token (R319, R426) -/
  | formeSlot (tag : Tag) (port : Nat)
  /-- a mail (R338) on its way to a tile: target tag and handler index, sender, identifier, payload, and whether it asks for a reply -/
  | mail (tile : Nat) (dst : Tag) (index : Nat) (src : Sender) (ident : BitVec 32) (payload : Token) (reply : Bool)
  /-- the answer to a mail (R338), from a tile, with the tag that the mail named -/
  | mailAnswer (origin : Nat) (dst : Sender) (target : Tag) (ident : BitVec 32) (answer : Nat) (reply : Bool)
  /-- a context-free notice (R340) from a tile, with the tag that the mail named -/
  | contextFree (origin : Nat) (dst : Sender) (target : Tag)
  /-- a withdrawal (R340) on its way to a tile -/
  | withdrawal (tile : Nat) (src : Sender)
  | stealAsk (tile core : Nat) (req : StealReq)
  | stealAnswer (tile core : Nat) (auto : Option Nat) (status : Nat) (piece : Option Piece)
  | walkNotice (tile core : Nat) (notice : WalkNotice)
  | retire (tile : Nat) (home : WalkerName) (walk : BitVec 32) (retired freed : Nat) (ecc : Option Nat)
  | dramRequest (actor : Nat) (req : DramReq)
  /-- a reply of a DRAM actor on its way to a tile, for its reply tag and port (R351): the requester's tag and port, and the row -/
  | dramReply (tile : Nat) (dst : Tag) (dport : Nat) (rq : Tag) (port row : Nat) (tok : Tok)
  /-- an invalidation of a duplicated page for a writer's tile, core and context, and its acknowledgement (R365) -/
  | invalidate (home dup page writer core who : Nat)
  | invalidated (home dup page writer core who : Nat)
  /-- a shootdown of the page of `n` bytes at `va` for a context, on its way to a node, and after the node has dropped it (R362) -/
  | shoot (tile core ctx node va n : Nat)
  | shot (tile core ctx node va n : Nat)
  /-- a seam (R379) on its way to a tile, for a consumer's tag and input port, of a producer's tag and output port; and the link by which it
  came, if it came from another module -/
  | seam (tile : Nat) (dst : Tag) (dport : Nat) (src : Tag) (sport : Nat) (via : Option Nat)
  | seamAck (src : Tag) (sport : Nat)
  | heartbeat (tile dir count : Nat) (slowed : Bool) (tasks : List (List Word))
  | timing (tile : Nat) (time sent : Nat)
  | proofReport (chase tile : Nat) (cut : BitVec 32)
  /-- a request to the host's or a peer module's memory (R369): requester tile and its request -/
  | backing (req : DramReq)
deriving DecidableEq, Repr

end Sys2Proof.Machine
end

