-- ==== Sys2Proof/Config.lean ====
section
/-! DEFINITION. What the spec leaves open: opaque constants with no body, so that nothing can be proved of their values. -/

namespace Sys2Proof.Config

open Sys2Proof.Machine

/-- What a token stored under the first key pair reads as under the second (R349: a meaningless value), by physical token. -/
opaque wrongKey : BitVec 512 → BitVec 512 → Nat → Token → Token

/-- What a kind-1 token that the host holds decrypts to, under a key pair and a data-unit sequence number (R369). -/
opaque decrypt : BitVec 512 → Nat → Token → Token

/-- What the module sends for bytes of a kind-1 token: key pair, data-unit sequence number, the first of the bytes, their number and their
value. The spec does not say how a part of a token is written (R369). -/
opaque encryptPart : BitVec 512 → Nat → Nat → Nat → Nat → Nat

/-- A byte of host or peer memory that the module's own services read (R369), by draw. -/
opaque outsideByte : Nat → Byte

/-- The length of a forme file whose header and placement entries are given: the spec places its sections by offset and states
no length (R413). -/
opaque fileLength : Nat → Nat

/-- The tile images of a placement that the bytes of a forme file, least significant first, hold (R413 gives no byte layout). -/
opaque tileImages : Nat → Nat → List TileImage

/-- The CCB of a chase that no FORME instruction has named: the spec does not say how a chase's number leads to its CCB (R411). -/
opaque ccbOf : Nat → Nat

/-- The channel of a DRAM actor that a physical token lies in: the spread over the eight channels is not given (R346). -/
opaque channelOf : Nat → Nat

/-- The place among the live tiles of the tile that the binder gives an endpoint's tag to: the spec names none (R16, R475). -/
opaque endpointPlace : Nat → Nat

/-- The type field of a flit that carries a token: the spec lists no types (R473). -/
opaque tokenFlitKind : BitVec 4

/-- The first eight bytes of a debug grant's entry of the measurement log: the spec gives its digest alone (R456). -/
opaque grantHead : Word

end Sys2Proof.Config
end

