-- ==== Sys2Proof/Machine/Encoding.lean ====
section
/-! DEFINITION. The map of every page (R43 to R69 and the encoding rules of the engine chapters): payload formats, the prefixes an
instruction accepts, and the encodings that trap ILLEGAL_ENCODING or RESERVED_NONZERO. -/

namespace Sys2Proof

/-- The payload formats of R44. -/
inductive Fmt where
  | da | di | bo | gb | zx
deriving DecidableEq, Repr

/-- Whether a prefix is refused, allowed or required. -/
inductive Accept where
  | no | opt | req
deriving DecidableEq, Repr

/-- Whether the presence of a prefix is accepted. -/
def Accept.ok : Accept → Bool → Bool
  | .no, b => !b
  | .opt, _ => true
  | .req, b => b

/-- A map entry: acceptance of PX.M and PX.R, least and most PX.I, what is ILLEGAL_ENCODING and what is RESERVED_NONZERO beyond
that, and the instruction. -/
structure Row where
  m : Accept
  r : Accept
  imin : Nat
  imax : Nat
  illegal : Opnd → Bool
  reserved : Opnd → Bool
  build : Opnd → Instr

/-- The format classes of R270, R281, R284, R286, R291 and R299, as lists of format codes (R54). -/
inductive FmtClass where
  | float | int | arith | bits | lane | any | window | coord | spa | mma | mmac | drain
deriving DecidableEq, Repr

/-- The format codes of a class. -/
def FmtClass.codes : FmtClass → List Nat
  | .float => [0, 1, 2]
  | .int => [5, 6, 7, 8, 9, 10, 11, 12]
  | .arith => [0, 1, 2, 5, 6, 7, 8, 9, 10, 11, 12]
  | .bits => [0, 1, 2, 3, 5, 6, 7, 8, 9, 10, 11, 12, 13, 14, 15]
  | .lane => [0, 1, 2, 3, 5, 6, 7, 8, 9, 10, 11, 12, 14, 15]
  | .any => [0, 1, 2, 3, 4, 5, 6, 7, 8, 9, 10, 11, 12, 13, 14, 15]
  | .window => [0, 2, 7]
  | .coord => [10, 11]
  | .spa => [0, 7]
  | .mma => [1, 2, 3, 5, 13]
  | .mmac => [14, 15]
  | .drain => [0, 1, 2, 3, 5, 6, 7, 13, 14, 15]

/-- Whether a format code belongs to a class. -/
def FmtClass.has (c : FmtClass) (n : Nat) : Bool := c.codes.contains n

/-- Whether a conversion is provided (R91, R277): complex only with complex, s4 only with s4 and the integers. -/
def cvtProvided (src dst : Nat) : Bool :=
  (decide (14 ≤ src) == decide (14 ≤ dst)) && (src != 13 || decide (5 ≤ dst)) && (dst != 13 || decide (5 ≤ src))

/-- The system register numbers of R179. -/
def sysregAssigned (n : Nat) : Bool :=
  decide (n ≤ 0xA) || (decide (0x10 ≤ n) && decide (n ≤ 0x14)) || (decide (0x18 ≤ n) && decide (n ≤ 0x1A)) ||
  (decide (0x20 ≤ n) && decide (n ≤ 0x25)) || (decide (0x40 ≤ n) && decide (n ≤ 0x4F)) ||
  (decide (0x80 ≤ n) && decide (n ≤ 0x87)) || (decide (0x100 ≤ n) && decide (n ≤ 0x17F))

/-- Payload format of a major of a page, and whether its immediate is unsigned (R55, R57, R58, R60, R61, R64 to R68); none where
the major is unassigned. -/
def layout : Nat → Nat → Option (Fmt × Bool)
  | 0, 0 => some (.da, false)
  | 0, 1 => some (.da, false)
  | 0, 2 => some (.da, false)
  | 0, 3 => some (.di, false)
  | 0, 4 => some (.di, false)
  | 0, 5 => some (.di, false)
  | 0, 6 => some (.di, false)
  | 0, 7 => some (.di, true)
  | 0, 8 => some (.di, true)
  | 0, 9 => some (.di, true)
  | 0, 10 => some (.di, false)
  | 0, 11 => some (.da, false)
  | 0, 12 => some (.da, false)
  | 0, 13 => some (.da, false)
  | 0, 14 => some (.da, false)
  | 0, 15 => some (.da, false)
  | 0, 16 => some (.da, false)
  | 0, 17 => some (.da, false)
  | 0, 18 => some (.da, false)
  | 0, 19 => some (.bo, false)
  | 0, 20 => some (.gb, false)
  | 0, 21 => some (.gb, false)
  | 0, 22 => some (.gb, false)
  | 0, 23 => some (.gb, false)
  | 0, 24 => some (.da, false)
  | 0, 25 => some (.zx, false)
  | 0, 26 => some (.gb, true)
  | 1, 0 => some (.da, false)
  | 1, 1 => some (.da, false)
  | 1, 2 => some (.da, false)
  | 1, 3 => some (.da, false)
  | 1, 4 => some (.da, true)
  | 1, 5 => some (.da, false)
  | 1, 6 => some (.da, false)
  | 1, 7 => some (.da, false)
  | 1, 8 => some (.da, false)
  | 1, 9 => some (.zx, false)
  | 1, 10 => some (.zx, false)
  | 1, 11 => some (.da, false)
  | 1, 12 => some (.di, true)
  | 1, 13 => some (.zx, false)
  | 1, 14 => some (.zx, false)
  | 1, 15 => some (.di, true)
  | 1, 16 => some (.di, true)
  | 1, 17 => some (.zx, false)
  | 1, 18 => some (.da, false)
  | 1, 19 => some (.di, true)
  | 1, 20 => some (.da, false)
  | 2, 0 => some (.da, false)
  | 2, 1 => some (.da, false)
  | 2, 2 => some (.da, false)
  | 2, 3 => some (.da, false)
  | 2, 4 => some (.da, false)
  | 2, 5 => some (.da, false)
  | 2, 6 => some (.da, false)
  | 2, 7 => some (.da, false)
  | 2, 8 => some (.da, false)
  | 2, 9 => some (.da, false)
  | 2, 10 => some (.da, false)
  | 2, 11 => some (.da, false)
  | 2, 12 => some (.da, false)
  | 2, 13 => some (.da, false)
  | 2, 14 => some (.da, false)
  | 2, 15 => some (.da, false)
  | 2, 16 => some (.da, false)
  | 3, 0 => some (.da, false)
  | 3, 1 => some (.da, false)
  | 3, 2 => some (.da, false)
  | 3, 3 => some (.da, false)
  | 3, 4 => some (.da, false)
  | 4, 0 => some (.da, false)
  | 4, 1 => some (.da, false)
  | 4, 2 => some (.da, false)
  | 4, 3 => some (.da, false)
  | 4, 4 => some (.da, false)
  | 4, 5 => some (.da, false)
  | 4, 6 => some (.da, false)
  | 4, 7 => some (.da, false)
  | 5, 0 => some (.da, false)
  | 5, 1 => some (.da, false)
  | 5, 2 => some (.da, false)
  | 5, 3 => some (.da, false)
  | 5, 4 => some (.da, false)
  | 6, 0 => some (.da, false)
  | 6, 1 => some (.da, false)
  | 6, 2 => some (.da, false)
  | 6, 3 => some (.da, false)
  | 6, 4 => some (.da, false)
  | 6, 5 => some (.da, false)
  | 6, 6 => some (.da, false)
  | 7, 0 => some (.da, false)
  | 7, 1 => some (.da, false)
  | 7, 2 => some (.da, false)
  | 7, 3 => some (.da, false)
  | 7, 4 => some (.da, false)
  | 7, 5 => some (.da, false)
  | 7, 6 => some (.da, false)
  | 7, 7 => some (.da, false)
  | 7, 8 => some (.da, false)
  | _, _ => none

/-- The map entries of page 0. -/
def pick0 (major : Nat) (o : Opnd) : Option Row :=
  match major with
  | 0 =>
    if o.f == 0 && o.fx == 0 then some ⟨.no, .opt, 0, 0, fun _ => false, fun _ => false, .add⟩
    else if o.f == 1 && o.fx == 0 then some ⟨.no, .opt, 0, 0, fun _ => false, fun _ => false, .sub⟩
    else if o.f == 2 && o.fx == 0 then some ⟨.no, .opt, 0, 0, fun _ => false, fun _ => false, .and⟩
    else if o.f == 3 && o.fx == 0 then some ⟨.no, .opt, 0, 0, fun _ => false, fun _ => false, .or⟩
    else none
  | 1 =>
    if o.f == 0 && o.fx == 0 then some ⟨.no, .opt, 0, 0, fun _ => false, fun _ => false, .xor⟩
    else if o.f == 1 && o.fx == 0 then some ⟨.no, .opt, 0, 0, fun _ => false, fun _ => false, .shl⟩
    else if o.f == 2 && o.fx == 0 then some ⟨.no, .opt, 0, 0, fun _ => false, fun _ => false, .shr⟩
    else if o.f == 3 && o.fx == 0 then some ⟨.no, .opt, 0, 0, fun _ => false, fun _ => false, .sar⟩
    else none
  | 2 =>
    if o.f == 0 && o.fx == 0 then some ⟨.no, .opt, 0, 0, fun _ => false, fun _ => false, .slt⟩
    else if o.f == 1 && o.fx == 0 then some ⟨.no, .opt, 0, 0, fun _ => false, fun _ => false, .sltz⟩
    else if o.f == 2 && o.fx == 0 then some ⟨.no, .opt, 0, 0, fun _ => false, fun _ => false, .andn⟩
    else if o.f == 3 && o.fx == 0 then some ⟨.no, .opt, 0, 0, fun _ => false, fun _ => false, .orn⟩
    else none
  | 3 =>
    if o.fx == 0 then some ⟨.no, .opt, 0, 3, fun _ => false, fun o => o.a != 0, .addi⟩
    else none
  | 4 =>
    if o.fx == 0 then some ⟨.no, .opt, 0, 3, fun _ => false, fun o => o.a != 0 || o.b != 0, .movi⟩
    else none
  | 5 =>
    if o.fx == 0 then some ⟨.no, .opt, 0, 3, fun _ => false, fun o => o.a != 0, .andi⟩
    else none
  | 6 =>
    if o.fx == 0 then some ⟨.no, .opt, 0, 3, fun _ => false, fun o => o.a != 0, .xori⟩
    else none
  | 7 =>
    if o.fx == 0 then some ⟨.no, .opt, 0, 0, fun _ => false, fun o => o.a != 0, .shli⟩
    else none
  | 8 =>
    if o.fx == 0 then some ⟨.no, .opt, 0, 0, fun _ => false, fun o => o.a != 0, .shri⟩
    else none
  | 9 =>
    if o.fx == 0 then some ⟨.no, .opt, 0, 0, fun _ => false, fun o => o.a != 0, .sari⟩
    else none
  | 10 =>
    if o.fx == 0 then some ⟨.no, .opt, 0, 3, fun _ => false, fun o => o.a != 0, .slti⟩
    else none
  | 11 =>
    if o.f == 0 && o.fx == 0 then some ⟨.no, .opt, 0, 0, fun _ => false, fun o => o.b != 0, .mov⟩
    else if o.f == 1 && o.fx == 0 then some ⟨.no, .req, 0, 0, fun _ => false, fun _ => false, .sel⟩
    else if o.f == 2 && o.fx == 0 then some ⟨.opt, .opt, 0, 0, fun o => o.mf 1 0 == 3, fun o => o.b != 0 || o.mf 9 2 != 0, .sext⟩
    else if o.f == 3 && o.fx == 0 then some ⟨.opt, .opt, 0, 0, fun o => o.mf 1 0 == 3, fun o => o.b != 0 || o.mf 9 2 != 0, .zext⟩
    else none
  | 12 =>
    if o.fx == 0 then some ⟨.opt, .opt, 0, 3, fun o => decide (5 < o.mf 9 7), fun o => (o.mf 6 6 == 1 && o.f == 3) || o.mf 5 0 != 0, .ld⟩
    else none
  | 13 =>
    if o.fx == 0 then some ⟨.opt, .opt, 0, 3, fun o => decide (5 < o.mf 9 7), fun o => o.mf 6 0 != 0, .st⟩
    else none
  | 14 =>
    if o.fx == 0 then some ⟨.opt, .opt, 0, 3, fun o => o.f == 3, fun o => o.mf 9 4 != 0, .ldw⟩
    else none
  | 15 =>
    if o.fx == 0 then some ⟨.opt, .opt, 0, 3, fun o => o.f == 3, fun o => o.mf 9 4 != 0, .stw⟩
    else none
  | 16 =>
    if o.fx == 0 then some ⟨.opt, .opt, 0, 3, fun _ => false, fun o => o.mf 9 8 != 0, .ldq⟩
    else none
  | 17 =>
    if o.fx == 0 then some ⟨.opt, .opt, 0, 3, fun _ => false, fun o => o.mf 9 8 != 0, .stq⟩
    else none
  | 18 =>
    if o.fx == 0 then some ⟨.no, .opt, 0, 3, fun _ => false, fun _ => false, .lea⟩
    else none
  | 19 =>
    if o.f == 0 && o.fx == 0 then some ⟨.no, .no, 0, 3, fun _ => false, fun _ => false, .br⟩
    else if o.f == 1 && o.fx == 0 then some ⟨.no, .no, 0, 3, fun _ => false, fun _ => false, .call⟩
    else none
  | 20 =>
    if o.fx == 0 then some ⟨.no, .opt, 0, 3, fun _ => false, fun o => o.a != 0 || o.b != 0, .bz⟩
    else none
  | 21 =>
    if o.fx == 0 then some ⟨.no, .opt, 0, 3, fun _ => false, fun o => o.a != 0 || o.b != 0, .bnz⟩
    else none
  | 22 =>
    if o.fx == 0 then some ⟨.no, .opt, 0, 3, fun _ => false, fun o => o.a != 0 || o.b != 0, .bltz⟩
    else none
  | 23 =>
    if o.fx == 0 then some ⟨.no, .opt, 0, 3, fun _ => false, fun o => o.a != 0 || o.b != 0, .bgez⟩
    else none
  | 24 =>
    if o.f == 0 && o.fx == 0 then some ⟨.no, .opt, 1, 3, fun _ => false, fun o => o.b != 0, .beq⟩
    else if o.f == 1 && o.fx == 0 then some ⟨.no, .opt, 1, 3, fun _ => false, fun o => o.b != 0, .bne⟩
    else if o.f == 2 && o.fx == 0 then some ⟨.no, .opt, 1, 3, fun _ => false, fun o => o.b != 0, .blt⟩
    else if o.f == 3 && o.fx == 0 then some ⟨.no, .opt, 1, 3, fun _ => false, fun o => o.b != 0, .bge⟩
    else none
  | 25 =>
    if o.xf 9 6 == 0 && o.fx == 0 then some ⟨.no, .no, 0, 0, fun _ => false, fun o => o.xf 5 0 != 0, .nop⟩
    else if o.xf 9 6 == 1 && o.fx == 0 then some ⟨.no, .no, 0, 0, fun _ => false, fun o => o.xf 1 0 != 0, .jr⟩
    else if o.xf 9 6 == 2 && o.fx == 0 then some ⟨.no, .no, 0, 0, fun _ => false, fun o => o.xf 1 0 != 0, .callr⟩
    else if o.xf 9 6 == 3 && o.fx == 0 then some ⟨.no, .no, 0, 0, fun _ => false, fun o => o.xf 5 0 != 0, .ret⟩
    else if o.xf 9 6 == 4 && o.fx == 0 then some ⟨.no, .no, 0, 0, fun _ => false, fun o => o.xf 5 0 != 0, .endh⟩
    else if o.xf 9 6 == 5 && o.fx == 0 then some ⟨.no, .no, 0, 0, fun _ => false, fun o => o.xf 5 0 != 0, .switch⟩
    else none
  | 26 =>
    if o.fx == 0 then some ⟨.no, .opt, 0, 3, fun o => o.imm == 0 && (o.a != 0 || o.b != 0), fun o => o.a != 0 || o.b != 0, .loop⟩
    else none
  | _ => none

/-- The map entries of page 1. -/
def pick1 (major : Nat) (o : Opnd) : Option Row :=
  match major with
  | 0 =>
    if o.f == 0 && o.fx == 0 then some ⟨.no, .opt, 0, 0, fun _ => false, fun _ => false, .mul⟩
    else if o.f == 1 && o.fx == 0 then some ⟨.no, .opt, 0, 0, fun _ => false, fun _ => false, .mulh⟩
    else if o.f == 2 && o.fx == 0 then some ⟨.no, .opt, 0, 0, fun _ => false, fun _ => false, .mulhz⟩
    else if o.f == 3 && o.fx == 0 then some ⟨.no, .opt, 0, 0, fun _ => false, fun _ => false, .mulw⟩
    else none
  | 1 =>
    if o.f == 0 && o.fx == 0 then some ⟨.no, .opt, 0, 0, fun _ => false, fun _ => false, .div⟩
    else if o.f == 1 && o.fx == 0 then some ⟨.no, .opt, 0, 0, fun _ => false, fun _ => false, .divz⟩
    else if o.f == 2 && o.fx == 0 then some ⟨.no, .opt, 0, 0, fun _ => false, fun _ => false, .rem⟩
    else if o.f == 3 && o.fx == 0 then some ⟨.no, .opt, 0, 0, fun _ => false, fun _ => false, .remz⟩
    else none
  | 2 =>
    if o.f == 0 && o.fx == 0 then some ⟨.no, .opt, 0, 0, fun _ => false, fun o => o.b != 0, .clz⟩
    else if o.f == 1 && o.fx == 0 then some ⟨.no, .opt, 0, 0, fun _ => false, fun o => o.b != 0, .ctz⟩
    else if o.f == 2 && o.fx == 0 then some ⟨.no, .opt, 0, 0, fun _ => false, fun o => o.b != 0, .popc⟩
    else if o.f == 3 && o.fx == 0 then some ⟨.no, .opt, 0, 0, fun _ => false, fun o => o.b != 0, .brev⟩
    else none
  | 3 =>
    if o.f == 0 && o.fx == 0 then some ⟨.no, .opt, 0, 0, fun _ => false, fun _ => false, .minz⟩
    else if o.f == 1 && o.fx == 0 then some ⟨.no, .opt, 0, 0, fun _ => false, fun _ => false, .maxz⟩
    else if o.f == 2 && o.fx == 0 then some ⟨.no, .opt, 0, 0, fun _ => false, fun o => o.b != 0, .abs⟩
    else if o.f == 3 && o.fx == 0 then some ⟨.no, .opt, 0, 0, fun _ => false, fun o => o.b != 0, .neg⟩
    else if o.f == 0 && o.fx == 1 then some ⟨.no, .opt, 0, 0, fun _ => false, fun _ => false, .min⟩
    else if o.f == 1 && o.fx == 1 then some ⟨.no, .opt, 0, 0, fun _ => false, fun _ => false, .max⟩
    else none
  | 4 =>
    if o.f == 0 && o.fx == 0 then some ⟨.no, .opt, 0, 2, fun o => o.ni == 1 || (o.ni == 0 && !o.r), fun o => (o.ni == 2 && (o.b != 0 || 4096 ≤ o.imm)), .bfx⟩
    else if o.f == 1 && o.fx == 0 then some ⟨.no, .opt, 0, 2, fun o => o.ni == 1 || (o.ni == 0 && !o.r), fun o => (o.ni == 2 && (o.b != 0 || 4096 ≤ o.imm)), .bfxs⟩
    else if o.f == 2 && o.fx == 0 then some ⟨.no, .opt, 0, 2, fun o => o.ni == 1 || (o.ni == 0 && !o.r), fun o => (o.ni == 2 && (o.b != 0 || 4096 ≤ o.imm)), .bfi⟩
    else none
  | 5 =>
    if o.f == 0 && o.fx == 0 then some ⟨.opt, .opt, 0, 0, fun o => decide (5 < o.mf 9 7), fun o => o.mf 6 3 != 0 || o.mf 1 0 != 0, .amoadd⟩
    else if o.f == 1 && o.fx == 0 then some ⟨.opt, .opt, 0, 0, fun o => decide (5 < o.mf 9 7), fun o => o.mf 6 3 != 0 || o.mf 1 0 != 0, .amoand⟩
    else if o.f == 2 && o.fx == 0 then some ⟨.opt, .opt, 0, 0, fun o => decide (5 < o.mf 9 7), fun o => o.mf 6 3 != 0 || o.mf 1 0 != 0, .amoor⟩
    else if o.f == 3 && o.fx == 0 then some ⟨.opt, .opt, 0, 0, fun o => decide (5 < o.mf 9 7), fun o => o.mf 6 3 != 0 || o.mf 1 0 != 0, .amoxor⟩
    else none
  | 6 =>
    if o.f == 0 && o.fx == 0 then some ⟨.opt, .opt, 0, 0, fun o => decide (5 < o.mf 9 7), fun o => o.mf 5 3 != 0 || o.mf 1 0 != 0, .amomin⟩
    else if o.f == 1 && o.fx == 0 then some ⟨.opt, .opt, 0, 0, fun o => decide (5 < o.mf 9 7), fun o => o.mf 5 3 != 0 || o.mf 1 0 != 0, .amomax⟩
    else if o.f == 2 && o.fx == 0 then some ⟨.opt, .opt, 0, 0, fun o => decide (5 < o.mf 9 7), fun o => o.mf 6 3 != 0 || o.mf 1 0 != 0, .amoswp⟩
    else if o.f == 3 && o.fx == 0 then some ⟨.opt, .req, 0, 0, fun o => decide (5 < o.mf 9 7), fun o => o.mf 6 3 != 0 || o.mf 1 0 != 0, .amocas⟩
    else none
  | 7 =>
    if o.fx == 0 then some ⟨.opt, .opt, 0, 3, fun o => decide (5 < o.mf 9 7) || decide (5 < o.mf 5 3), fun o => o.mf 6 6 != 0 || o.mf 2 0 != 0, .lda⟩
    else none
  | 8 =>
    if o.fx == 0 then some ⟨.opt, .opt, 0, 3, fun o => decide (5 < o.mf 9 7) || decide (5 < o.mf 5 3), fun o => o.mf 6 6 != 0 || o.mf 2 0 != 0, .stl⟩
    else none
  | 9 =>
    if o.xf 9 6 == 0 && o.fx == 0 then some ⟨.no, .no, 0, 0, fun o => decide (5 < o.xf 5 3), fun o => o.xf 2 0 != 0, .fence⟩
    else if o.xf 9 6 == 1 && o.fx == 0 then some ⟨.no, .no, 0, 0, fun o => decide (5 < o.xf 5 3), fun o => o.xf 2 0 != 0, .fenceL⟩
    else if o.xf 9 6 == 2 && o.fx == 0 then some ⟨.no, .no, 0, 0, fun o => decide (5 < o.xf 5 3), fun o => o.xf 2 0 != 0, .fenceS⟩
    else if o.xf 9 6 == 3 && o.fx == 0 then some ⟨.no, .no, 0, 0, fun o => decide (5 < o.xf 5 3), fun o => o.xf 2 0 != 0, .fenceT⟩
    else if o.xf 9 6 == 4 && o.fx == 0 then some ⟨.no, .no, 0, 0, fun o => decide (5 < o.xf 5 3), fun o => o.xf 2 0 != 0 || o.xf 5 3 != 0, .fenceE⟩
    else none
  | 10 =>
    if o.fx == 0 then some ⟨.no, .no, 0, 0, fun o => o.xf 6 3 == 0, fun o => o.xf 2 0 != 0, .bar⟩
    else none
  | 11 =>
    if o.f == 0 && o.fx == 0 then some ⟨.no, .opt, 0, 0, fun o => o.d.toNat % 2 == 1, fun o => o.a != 0 || o.b != 0, .waitev⟩
    else if o.f == 1 && o.fx == 0 then some ⟨.no, .opt, 0, 0, fun o => o.d.toNat % 2 == 1, fun o => o.a != 0 || o.b != 0, .pollev⟩
    else none
  | 12 =>
    if o.fx == 0 then some ⟨.no, .no, 0, 0, fun _ => false, fun o => o.d != 0 || o.a != 0 || o.b != 0, .prio⟩
    else none
  | 13 =>
    if o.xf 9 8 == 0 && o.fx == 0 then some ⟨.no, .no, 0, 0, fun _ => false, fun o => o.xf 7 0 != 0, .gang2⟩
    else if o.xf 9 8 == 1 && o.fx == 0 then some ⟨.no, .no, 0, 0, fun _ => false, fun o => o.xf 7 0 != 0, .gang4⟩
    else if o.xf 9 8 == 2 && o.fx == 0 then some ⟨.no, .no, 0, 0, fun _ => false, fun o => o.xf 7 0 != 0, .ungang⟩
    else none
  | 14 =>
    if o.xf 9 9 == 0 && o.fx == 0 then some ⟨.no, .no, 0, 0, fun _ => false, fun o => o.xf 8 8 != 0, .trap⟩
    else if o.xf 9 9 == 1 && o.fx == 0 then some ⟨.no, .no, 0, 0, fun _ => false, fun o => o.xf 8 8 != 0, .brk⟩
    else none
  | 15 =>
    if o.fx == 0 then some ⟨.no, .opt, 0, 1, fun o => !sysregAssigned o.imm.toNat, fun o => o.a != 0 || o.b != 0, .mfs⟩
    else none
  | 16 =>
    if o.fx == 0 then some ⟨.no, .opt, 0, 1, fun o => !sysregAssigned o.imm.toNat, fun o => o.a != 0 || o.b != 0, .mts⟩
    else none
  | 17 =>
    if o.fx == 0 then some ⟨.no, .no, 0, 0, fun _ => false, fun o => o.x != 0, .eret⟩
    else none
  | 18 =>
    if o.f == 0 && o.fx == 0 then some ⟨.no, .opt, 0, 0, fun _ => false, fun o => o.d != 0 || o.b != 0, .sleep⟩
    else none
  | 19 =>
    if o.fx == 0 then some ⟨.no, .no, 0, 0, fun o => decide (32 ≤ o.imm), fun o => o.d != 0 || o.a != 0 || o.b != 0, .freqreq⟩
    else none
  | 20 =>
    if o.f == 0 && o.fx == 0 then some ⟨.no, .opt, 0, 0, fun _ => false, fun o => o.a != 0 || o.b != 0, .rdtime⟩
    else if o.f == 1 && o.fx == 0 then some ⟨.no, .opt, 0, 0, fun _ => false, fun o => o.a != 0 || o.b != 0, .rdcyc⟩
    else none
  | _ => none

/-- The map entries of page 2. -/
def pick2 (major : Nat) (o : Opnd) : Option Row :=
  match major with
  | 0 =>
    if o.f == 0 && o.fx == 0 then some ⟨.opt, .opt, 0, 0, fun o => decide (32 ≤ o.d.toNat) || decide (32 ≤ o.a.toNat) || decide (32 ≤ o.b.toNat) || !(FmtClass.arith).has (o.mf 9 6) || decide (4 < o.mf 2 0), fun o => (o.mf 2 0 != 0 && !FmtClass.float.has (o.mf 9 6)), .vadd⟩
    else if o.f == 1 && o.fx == 0 then some ⟨.opt, .opt, 0, 0, fun o => decide (32 ≤ o.d.toNat) || decide (32 ≤ o.a.toNat) || decide (32 ≤ o.b.toNat) || !(FmtClass.arith).has (o.mf 9 6) || decide (4 < o.mf 2 0), fun o => (o.mf 2 0 != 0 && !FmtClass.float.has (o.mf 9 6)), .vsub⟩
    else if o.f == 2 && o.fx == 0 then some ⟨.opt, .opt, 0, 0, fun o => decide (32 ≤ o.d.toNat) || decide (32 ≤ o.a.toNat) || decide (32 ≤ o.b.toNat) || !(FmtClass.arith).has (o.mf 9 6) || decide (4 < o.mf 2 0), fun o => (o.mf 2 0 != 0 && !FmtClass.float.has (o.mf 9 6)), .vmul⟩
    else if o.f == 3 && o.fx == 0 then some ⟨.opt, .opt, 0, 0, fun o => decide (32 ≤ o.d.toNat) || decide (32 ≤ o.a.toNat) || decide (32 ≤ o.b.toNat) || !(FmtClass.float).has (o.mf 9 6) || decide (4 < o.mf 2 0), fun o => (o.mf 2 0 != 0 && !FmtClass.float.has (o.mf 9 6)), .vdiv⟩
    else none
  | 1 =>
    if o.f == 0 && o.fx == 0 then some ⟨.opt, .opt, 0, 0, fun o => decide (32 ≤ o.d.toNat) || decide (32 ≤ o.a.toNat) || decide (32 ≤ o.b.toNat) || !(FmtClass.arith).has (o.mf 9 6) || decide (4 < o.mf 2 0), fun o => o.mf 2 0 != 0, .vmin⟩
    else if o.f == 1 && o.fx == 0 then some ⟨.opt, .opt, 0, 0, fun o => decide (32 ≤ o.d.toNat) || decide (32 ≤ o.a.toNat) || decide (32 ≤ o.b.toNat) || !(FmtClass.arith).has (o.mf 9 6) || decide (4 < o.mf 2 0), fun o => o.mf 2 0 != 0, .vmax⟩
    else if o.f == 2 && o.fx == 0 then some ⟨.opt, .opt, 0, 0, fun o => decide (32 ≤ o.d.toNat) || decide (32 ≤ o.a.toNat) || !(FmtClass.arith).has (o.mf 9 6) || decide (4 < o.mf 2 0), fun o => o.b != 0 || o.mf 2 0 != 0, .vabs⟩
    else if o.f == 3 && o.fx == 0 then some ⟨.opt, .opt, 0, 0, fun o => decide (32 ≤ o.d.toNat) || decide (32 ≤ o.a.toNat) || !(FmtClass.arith).has (o.mf 9 6) || decide (4 < o.mf 2 0), fun o => o.b != 0 || o.mf 2 0 != 0, .vneg⟩
    else none
  | 2 =>
    if o.f == 0 && o.fx == 0 then some ⟨.opt, .req, 0, 0, fun o => decide (32 ≤ o.d.toNat) || decide (32 ≤ o.a.toNat) || decide (32 ≤ o.b.toNat) || !(FmtClass.float).has (o.mf 9 6) || decide (4 < o.mf 2 0), fun o => (o.mf 2 0 != 0 && !FmtClass.float.has (o.mf 9 6)), .vfma⟩
    else if o.f == 1 && o.fx == 0 then some ⟨.opt, .req, 0, 0, fun o => decide (32 ≤ o.d.toNat) || decide (32 ≤ o.a.toNat) || decide (32 ≤ o.b.toNat) || !(FmtClass.float).has (o.mf 9 6) || decide (4 < o.mf 2 0), fun o => (o.mf 2 0 != 0 && !FmtClass.float.has (o.mf 9 6)), .vfms⟩
    else if o.f == 2 && o.fx == 0 then some ⟨.opt, .req, 0, 0, fun o => decide (32 ≤ o.d.toNat) || decide (32 ≤ o.a.toNat) || decide (32 ≤ o.b.toNat) || !(FmtClass.float).has (o.mf 9 6) || decide (4 < o.mf 2 0), fun o => (o.mf 2 0 != 0 && !FmtClass.float.has (o.mf 9 6)), .vfnma⟩
    else if o.f == 3 && o.fx == 0 then some ⟨.opt, .req, 0, 0, fun o => decide (32 ≤ o.d.toNat) || decide (32 ≤ o.a.toNat) || decide (32 ≤ o.b.toNat) || !(FmtClass.float).has (o.mf 9 6) || decide (4 < o.mf 2 0), fun o => (o.mf 2 0 != 0 && !FmtClass.float.has (o.mf 9 6)), .vfnms⟩
    else none
  | 3 =>
    if o.f == 0 && o.fx == 0 then some ⟨.opt, .opt, 0, 0, fun o => decide (32 ≤ o.d.toNat) || decide (32 ≤ o.a.toNat) || !(FmtClass.float).has (o.mf 9 6) || decide (4 < o.mf 2 0), fun o => o.b != 0 || o.mf 2 0 != 0, .vexp2⟩
    else if o.f == 1 && o.fx == 0 then some ⟨.opt, .opt, 0, 0, fun o => decide (32 ≤ o.d.toNat) || decide (32 ≤ o.a.toNat) || !(FmtClass.float).has (o.mf 9 6) || decide (4 < o.mf 2 0), fun o => o.b != 0 || o.mf 2 0 != 0, .vlog2⟩
    else if o.f == 2 && o.fx == 0 then some ⟨.opt, .opt, 0, 0, fun o => decide (32 ≤ o.d.toNat) || decide (32 ≤ o.a.toNat) || !(FmtClass.float).has (o.mf 9 6) || decide (4 < o.mf 2 0), fun o => o.b != 0 || (o.mf 2 0 != 0 && !FmtClass.float.has (o.mf 9 6)), .vrcp⟩
    else if o.f == 3 && o.fx == 0 then some ⟨.opt, .opt, 0, 0, fun o => decide (32 ≤ o.d.toNat) || decide (32 ≤ o.a.toNat) || !(FmtClass.float).has (o.mf 9 6) || decide (4 < o.mf 2 0), fun o => o.b != 0 || (o.mf 2 0 != 0 && !FmtClass.float.has (o.mf 9 6)), .vrsqrt⟩
    else if o.f == 0 && o.fx == 1 then some ⟨.opt, .opt, 0, 0, fun o => decide (32 ≤ o.d.toNat) || decide (32 ≤ o.a.toNat) || !(FmtClass.float).has (o.mf 9 6) || decide (4 < o.mf 2 0), fun o => o.b != 0 || o.mf 2 0 != 0, .vsin⟩
    else if o.f == 1 && o.fx == 1 then some ⟨.opt, .opt, 0, 0, fun o => decide (32 ≤ o.d.toNat) || decide (32 ≤ o.a.toNat) || !(FmtClass.float).has (o.mf 9 6) || decide (4 < o.mf 2 0), fun o => o.b != 0 || o.mf 2 0 != 0, .vcos⟩
    else if o.f == 2 && o.fx == 1 then some ⟨.opt, .opt, 0, 0, fun o => decide (32 ≤ o.d.toNat) || decide (32 ≤ o.a.toNat) || !(FmtClass.float).has (o.mf 9 6) || decide (4 < o.mf 2 0), fun o => o.b != 0 || o.mf 2 0 != 0, .vtanh⟩
    else if o.f == 3 && o.fx == 1 then some ⟨.opt, .opt, 0, 0, fun o => decide (32 ≤ o.d.toNat) || decide (32 ≤ o.a.toNat) || !(FmtClass.float).has (o.mf 9 6) || decide (4 < o.mf 2 0), fun o => o.b != 0 || (o.mf 2 0 != 0 && !FmtClass.float.has (o.mf 9 6)), .vsqrt⟩
    else none
  | 4 =>
    if o.f == 0 && o.fx == 0 then some ⟨.opt, .opt, 0, 0, fun o => decide (32 ≤ o.d.toNat) || decide (32 ≤ o.a.toNat) || decide (32 ≤ o.b.toNat) || !(FmtClass.bits).has (o.mf 9 6) || decide (4 < o.mf 2 0), fun o => o.mf 2 0 != 0, .vand⟩
    else if o.f == 1 && o.fx == 0 then some ⟨.opt, .opt, 0, 0, fun o => decide (32 ≤ o.d.toNat) || decide (32 ≤ o.a.toNat) || decide (32 ≤ o.b.toNat) || !(FmtClass.bits).has (o.mf 9 6) || decide (4 < o.mf 2 0), fun o => o.mf 2 0 != 0, .vor⟩
    else if o.f == 2 && o.fx == 0 then some ⟨.opt, .opt, 0, 0, fun o => decide (32 ≤ o.d.toNat) || decide (32 ≤ o.a.toNat) || decide (32 ≤ o.b.toNat) || !(FmtClass.bits).has (o.mf 9 6) || decide (4 < o.mf 2 0), fun o => o.mf 2 0 != 0, .vxor⟩
    else if o.f == 3 && o.fx == 0 then some ⟨.opt, .opt, 0, 0, fun o => decide (32 ≤ o.d.toNat) || decide (32 ≤ o.a.toNat) || decide (32 ≤ o.b.toNat) || !(FmtClass.int).has (o.mf 9 6) || decide (4 < o.mf 2 0), fun o => o.mf 2 0 != 0, .vshl⟩
    else if o.f == 0 && o.fx == 1 then some ⟨.opt, .opt, 0, 0, fun o => decide (32 ≤ o.d.toNat) || decide (32 ≤ o.a.toNat) || decide (32 ≤ o.b.toNat) || !(FmtClass.int).has (o.mf 9 6) || decide (4 < o.mf 2 0), fun o => o.mf 2 0 != 0, .vshr⟩
    else if o.f == 1 && o.fx == 1 then some ⟨.opt, .opt, 0, 0, fun o => decide (32 ≤ o.d.toNat) || decide (32 ≤ o.a.toNat) || decide (32 ≤ o.b.toNat) || !(FmtClass.int).has (o.mf 9 6) || decide (4 < o.mf 2 0), fun o => o.mf 2 0 != 0, .vsar⟩
    else if o.f == 2 && o.fx == 1 then some ⟨.opt, .opt, 0, 0, fun o => decide (32 ≤ o.d.toNat) || decide (32 ≤ o.a.toNat) || decide (32 ≤ o.b.toNat) || !(FmtClass.int).has (o.mf 9 6) || decide (4 < o.mf 2 0), fun o => o.mf 2 0 != 0, .vadds⟩
    else if o.f == 3 && o.fx == 1 then some ⟨.opt, .opt, 0, 0, fun o => decide (32 ≤ o.d.toNat) || decide (32 ≤ o.a.toNat) || decide (32 ≤ o.b.toNat) || !(FmtClass.int).has (o.mf 9 6) || decide (4 < o.mf 2 0), fun o => o.mf 2 0 != 0, .vsubs⟩
    else none
  | 5 =>
    if o.f == 0 && o.fx == 0 then some ⟨.opt, .opt, 0, 0, fun o => decide (8 ≤ o.d.toNat) || decide (32 ≤ o.a.toNat) || decide (32 ≤ o.b.toNat) || !(FmtClass.arith).has (o.mf 9 6) || decide (4 < o.mf 2 0), fun o => o.mf 2 0 != 0, .vcmpeq⟩
    else if o.f == 1 && o.fx == 0 then some ⟨.opt, .opt, 0, 0, fun o => decide (8 ≤ o.d.toNat) || decide (32 ≤ o.a.toNat) || decide (32 ≤ o.b.toNat) || !(FmtClass.arith).has (o.mf 9 6) || decide (4 < o.mf 2 0), fun o => o.mf 2 0 != 0, .vcmplt⟩
    else if o.f == 2 && o.fx == 0 then some ⟨.opt, .opt, 0, 0, fun o => decide (8 ≤ o.d.toNat) || decide (32 ≤ o.a.toNat) || decide (32 ≤ o.b.toNat) || !(FmtClass.arith).has (o.mf 9 6) || decide (4 < o.mf 2 0), fun o => o.mf 2 0 != 0, .vcmple⟩
    else if o.f == 3 && o.fx == 0 then some ⟨.opt, .opt, 0, 0, fun o => decide (8 ≤ o.d.toNat) || decide (32 ≤ o.a.toNat) || decide (32 ≤ o.b.toNat) || !(FmtClass.arith).has (o.mf 9 6) || decide (4 < o.mf 2 0), fun o => o.mf 2 0 != 0, .vcmpne⟩
    else none
  | 6 =>
    if o.f == 0 && o.fx == 0 then some ⟨.opt, .opt, 0, 0, fun o => decide (32 ≤ o.d.toNat) || decide (32 ≤ o.a.toNat) || !(FmtClass.bits).has (o.mf 9 6) || decide (4 < o.mf 2 0), fun o => o.b != 0 || o.mf 2 0 != 0, .vmov⟩
    else if o.f == 1 && o.fx == 0 then some ⟨.opt, .req, 0, 0, fun o => decide (32 ≤ o.d.toNat) || decide (32 ≤ o.a.toNat) || decide (32 ≤ o.b.toNat) || !(FmtClass.bits).has (o.mf 9 6) || decide (4 < o.mf 2 0), fun o => o.mf 2 0 != 0, .vsel⟩
    else if o.f == 2 && o.fx == 0 then some ⟨.opt, .opt, 0, 0, fun o => decide (32 ≤ o.d.toNat) || !(FmtClass.lane).has (o.mf 9 6) || decide (4 < o.mf 2 0), fun o => o.b != 0 || o.mf 2 0 != 0, .vbcast⟩
    else if o.f == 3 && o.fx == 0 then some ⟨.opt, .opt, 0, 0, fun o => decide (32 ≤ o.a.toNat) || !(FmtClass.lane).has (o.mf 9 6) || decide (4 < o.mf 2 0), fun o => o.mf 2 0 != 0 || o.mf 5 3 != 0, .vextr⟩
    else none
  | 7 =>
    if o.f == 0 then some ⟨.opt, .opt, 0, 0, fun o => decide (32 ≤ o.d.toNat) || decide (32 ≤ o.a.toNat) || !(FmtClass.any).has (o.mf 9 6) || decide (4 < o.mf 2 0) || !cvtProvided (o.mf 9 6) (o.fx.extractLsb' 0 4).toNat, fun o => o.b != 0 || (o.fx.extractLsb' 4 3) != 0, .vcvt⟩
    else none
  | 8 =>
    if o.f == 0 && o.fx == 0 then some ⟨.opt, .opt, 0, 0, fun o => decide (32 ≤ o.d.toNat) || decide (32 ≤ o.a.toNat) || !(FmtClass.arith).has (o.mf 9 6) || decide (4 < o.mf 2 0), fun o => o.b != 0 || (o.mf 2 0 != 0 && !FmtClass.float.has (o.mf 9 6)), .vredsum⟩
    else if o.f == 1 && o.fx == 0 then some ⟨.opt, .opt, 0, 0, fun o => decide (32 ≤ o.d.toNat) || decide (32 ≤ o.a.toNat) || !(FmtClass.arith).has (o.mf 9 6) || decide (4 < o.mf 2 0), fun o => o.b != 0 || o.mf 2 0 != 0, .vredmin⟩
    else if o.f == 2 && o.fx == 0 then some ⟨.opt, .opt, 0, 0, fun o => decide (32 ≤ o.d.toNat) || decide (32 ≤ o.a.toNat) || !(FmtClass.arith).has (o.mf 9 6) || decide (4 < o.mf 2 0), fun o => o.b != 0 || o.mf 2 0 != 0, .vredmax⟩
    else if o.f == 3 && o.fx == 0 then some ⟨.opt, .opt, 0, 0, fun o => decide (32 ≤ o.d.toNat) || decide (32 ≤ o.a.toNat) || !(FmtClass.arith).has (o.mf 9 6) || decide (4 < o.mf 2 0), fun o => o.b != 0 || (o.mf 2 0 != 0 && !FmtClass.float.has (o.mf 9 6)), .vscan⟩
    else none
  | 9 =>
    if o.f == 0 && o.fx == 0 then some ⟨.opt, .req, 0, 0, fun o => decide (32 ≤ o.d.toNat) || decide (32 ≤ o.a.toNat) || decide (32 ≤ o.b.toNat) || !(FmtClass.lane).has (o.mf 9 6) || decide (4 < o.mf 2 0), fun o => o.mf 2 0 != 0, .vperm⟩
    else if o.f == 1 && o.fx == 0 then some ⟨.opt, .opt, 0, 0, fun o => decide (32 ≤ o.d.toNat) || decide (32 ≤ o.a.toNat) || !(FmtClass.lane).has (o.mf 9 6) || decide (4 < o.mf 2 0), fun o => o.b != 0 || o.mf 2 0 != 0, .vcompress⟩
    else if o.f == 2 && o.fx == 0 then some ⟨.opt, .opt, 0, 0, fun o => decide (32 ≤ o.d.toNat) || decide (32 ≤ o.a.toNat) || !(FmtClass.lane).has (o.mf 9 6) || decide (4 < o.mf 2 0), fun o => o.b != 0 || o.mf 2 0 != 0, .vexpand⟩
    else if o.f == 3 && o.fx == 0 then some ⟨.opt, .opt, 0, 0, fun o => decide (32 ≤ o.d.toNat) || decide (32 ≤ o.a.toNat) || !(FmtClass.lane).has (o.mf 9 6) || decide (4 < o.mf 2 0), fun o => o.mf 2 0 != 0, .vrot⟩
    else none
  | 10 =>
    if o.f == 0 then some ⟨.opt, .opt, 0, 3, fun o => decide (32 ≤ o.d.toNat) || !(FmtClass.bits).has (o.mf 9 6) || decide (4 < o.mf 2 0) || decide (1 < (o.fx.extractLsb' 0 3).toNat), fun o => o.b != 0 || (o.fx.extractLsb' 3 4) != 0 || o.mf 2 0 != 0, .vld⟩
    else if o.f == 1 then some ⟨.opt, .opt, 0, 3, fun o => decide (32 ≤ o.d.toNat) || !(FmtClass.bits).has (o.mf 9 6) || decide (4 < o.mf 2 0) || decide (1 < (o.fx.extractLsb' 0 3).toNat), fun o => (o.fx.extractLsb' 3 4) != 0 || o.mf 2 0 != 0, .vlds⟩
    else if o.f == 2 then some ⟨.opt, .opt, 0, 3, fun o => decide (32 ≤ o.d.toNat) || decide (32 ≤ o.b.toNat) || !(FmtClass.bits).has (o.mf 9 6) || decide (4 < o.mf 2 0) || decide (1 < (o.fx.extractLsb' 0 3).toNat), fun o => (o.fx.extractLsb' 3 4) != 0 || o.mf 2 0 != 0, .vldg⟩
    else if o.f == 3 then some ⟨.opt, .opt, 0, 3, fun o => decide (32 ≤ o.d.toNat) || !(FmtClass.window).has (o.mf 9 6) || decide (4 < o.mf 2 0), fun o => o.b != 0 || (o.fx.extractLsb' 0 3) != 0, .vldf⟩
    else none
  | 11 =>
    if o.f == 0 then some ⟨.opt, .opt, 0, 3, fun o => decide (32 ≤ o.d.toNat) || !(FmtClass.bits).has (o.mf 9 6) || decide (4 < o.mf 2 0) || decide (1 < (o.fx.extractLsb' 0 3).toNat), fun o => o.b != 0 || (o.fx.extractLsb' 3 4) != 0 || o.mf 2 0 != 0, .vst⟩
    else if o.f == 1 then some ⟨.opt, .opt, 0, 3, fun o => decide (32 ≤ o.d.toNat) || !(FmtClass.bits).has (o.mf 9 6) || decide (4 < o.mf 2 0) || decide (1 < (o.fx.extractLsb' 0 3).toNat), fun o => (o.fx.extractLsb' 3 4) != 0 || o.mf 2 0 != 0, .vsts⟩
    else if o.f == 2 then some ⟨.opt, .opt, 0, 3, fun o => decide (32 ≤ o.d.toNat) || decide (32 ≤ o.b.toNat) || !(FmtClass.bits).has (o.mf 9 6) || decide (4 < o.mf 2 0) || decide (1 < (o.fx.extractLsb' 0 3).toNat), fun o => (o.fx.extractLsb' 3 4) != 0 || o.mf 2 0 != 0, .vstg⟩
    else if o.f == 3 then some ⟨.opt, .opt, 0, 3, fun o => decide (32 ≤ o.d.toNat) || !(FmtClass.window).has (o.mf 9 6) || decide (4 < o.mf 2 0), fun o => o.b != 0 || (o.fx.extractLsb' 0 3) != 0, .vstf⟩
    else none
  | 12 =>
    if o.f == 0 && o.fx == 0 then some ⟨.no, .opt, 0, 0, fun o => decide (8 ≤ o.d.toNat) || decide (8 ≤ o.a.toNat) || decide (8 ≤ o.b.toNat), fun _ => false, .kand⟩
    else if o.f == 1 && o.fx == 0 then some ⟨.no, .opt, 0, 0, fun o => decide (8 ≤ o.d.toNat) || decide (8 ≤ o.a.toNat) || decide (8 ≤ o.b.toNat), fun _ => false, .kor⟩
    else if o.f == 2 && o.fx == 0 then some ⟨.no, .opt, 0, 0, fun o => decide (8 ≤ o.d.toNat) || decide (8 ≤ o.a.toNat) || decide (8 ≤ o.b.toNat), fun _ => false, .kxor⟩
    else if o.f == 3 && o.fx == 0 then some ⟨.no, .opt, 0, 0, fun o => decide (8 ≤ o.d.toNat) || decide (8 ≤ o.a.toNat), fun o => o.b != 0, .knot⟩
    else if o.f == 0 && o.fx == 1 then some ⟨.no, .opt, 0, 0, fun o => decide (8 ≤ o.a.toNat), fun o => o.b != 0, .kpopc⟩
    else if o.f == 1 && o.fx == 1 then some ⟨.no, .opt, 0, 0, fun o => decide (8 ≤ o.a.toNat), fun o => o.b != 0, .kfirst⟩
    else if o.f == 2 && o.fx == 1 then some ⟨.no, .opt, 0, 0, fun o => decide (8 ≤ o.d.toNat), fun o => o.b != 0, .kset⟩
    else if o.f == 3 && o.fx == 1 then some ⟨.no, .opt, 0, 0, fun o => decide (8 ≤ o.d.toNat) || decide (8 ≤ o.a.toNat), fun o => o.b != 0, .kmov⟩
    else none
  | 13 =>
    if o.f == 0 && o.fx == 0 then some ⟨.opt, .req, 0, 0, fun o => decide (8 ≤ o.d.toNat) || decide (32 ≤ o.a.toNat) || decide (32 ≤ o.b.toNat) || !(FmtClass.coord).has (o.mf 9 6) || decide (4 < o.mf 2 0), fun o => o.mf 2 0 != 0, .visect⟩
    else if o.f == 1 && o.fx == 0 then some ⟨.opt, .req, 0, 0, fun o => decide (32 ≤ o.d.toNat) || decide (32 ≤ o.a.toNat) || decide (32 ≤ o.b.toNat) || !(FmtClass.coord).has (o.mf 9 6) || decide (4 < o.mf 2 0), fun o => o.mf 2 0 != 0, .vunion⟩
    else none
  | 14 =>
    if o.f == 0 && o.fx == 0 then some ⟨.opt, .opt, 0, 0, fun o => !(FmtClass.spa).has (o.mf 9 6) || decide (4 < o.mf 2 0), fun o => o.d != 0 || o.a != 0 || o.b != 0 || o.mf 2 0 != 0 || o.mf 5 3 != 0, .vspaclr⟩
    else if o.f == 1 && o.fx == 0 then some ⟨.opt, .req, 0, 0, fun o => decide (32 ≤ o.a.toNat) || decide (32 ≤ o.b.toNat) || !(FmtClass.spa).has (o.mf 9 6) || decide (4 < o.mf 2 0), fun o => o.d != 0 || (o.mf 2 0 != 0 && !FmtClass.float.has (o.mf 9 6)), .vspaacc⟩
    else if o.f == 2 && o.fx == 0 then some ⟨.opt, .opt, 0, 0, fun o => decide (32 ≤ o.d.toNat) || decide (32 ≤ o.a.toNat) || !(FmtClass.spa).has (o.mf 9 6) || decide (4 < o.mf 2 0), fun o => o.b != 0 || o.mf 2 0 != 0, .vspaget⟩
    else if o.f == 3 && o.fx == 0 then some ⟨.opt, .opt, 0, 0, fun o => decide (32 ≤ o.d.toNat) || o.d.toNat % 2 == 1, fun o => o.b != 0 || o.mod != 0, .vspadrain⟩
    else none
  | 15 =>
    if o.f == 0 && o.fx == 0 then some ⟨.opt, .req, 0, 0, fun o => decide (32 ≤ o.d.toNat) || !(o.a.toNat / 8 == 3) || !(FmtClass.bits).has (o.mf 9 6) || decide (4 < o.mf 2 0), fun o => o.mf 2 0 != 0, .vpop⟩
    else if o.f == 1 && o.fx == 0 then some ⟨.opt, .req, 0, 0, fun o => !(o.d.toNat / 8 == 3) || decide (32 ≤ o.a.toNat) || !(FmtClass.bits).has (o.mf 9 6) || decide (4 < o.mf 2 0), fun o => o.b != 0 || o.mf 2 0 != 0, .vpush⟩
    else none
  | 16 =>
    if o.f == 0 && o.fx == 0 then some ⟨.no, .req, 0, 0, fun o => decide (32 ≤ o.d.toNat) || decide (32 ≤ o.a.toNat) || decide (32 ≤ o.b.toNat), fun _ => false, .vdot4⟩
    else if o.f == 1 && o.fx == 0 then some ⟨.no, .req, 0, 0, fun o => decide (32 ≤ o.d.toNat) || decide (32 ≤ o.a.toNat) || decide (32 ≤ o.b.toNat), fun _ => false, .vdot2⟩
    else if o.f == 2 && o.fx == 0 then some ⟨.no, .req, 0, 0, fun o => decide (32 ≤ o.d.toNat) || decide (32 ≤ o.a.toNat) || decide (32 ≤ o.b.toNat), fun _ => false, .vcdot⟩
    else if o.f == 3 && o.fx == 0 then some ⟨.no, .req, 0, 0, fun o => decide (32 ≤ o.d.toNat) || decide (32 ≤ o.a.toNat) || decide (32 ≤ o.b.toNat), fun _ => false, .vcdot4⟩
    else none
  | _ => none

/-- The map entries of page 3. -/
def pick3 (major : Nat) (o : Opnd) : Option Row :=
  match major with
  | 0 =>
    if o.f == 0 && o.fx == 0 then some ⟨.req, .req, 0, 0, fun o => !FmtClass.mma.has (o.mf 9 6), fun _ => false, .mma⟩
    else if o.f == 1 && o.fx == 0 then some ⟨.req, .req, 0, 0, fun o => !FmtClass.mma.has (o.mf 9 6), fun _ => false, .mmaZ⟩
    else none
  | 1 =>
    if o.f == 0 && o.fx == 0 then some ⟨.req, .req, 0, 0, fun o => !FmtClass.mmac.has (o.mf 9 6), fun _ => false, .mmac⟩
    else if o.f == 1 && o.fx == 0 then some ⟨.req, .req, 0, 0, fun o => !FmtClass.mmac.has (o.mf 9 6), fun _ => false, .mmacZ⟩
    else none
  | 2 =>
    if o.f == 0 && o.fx == 0 then some ⟨.opt, .opt, 0, 0, fun _ => false, fun o => o.b != 0 || o.mf 9 6 != 0, .mwload⟩
    else none
  | 3 =>
    if o.f == 0 && o.fx == 0 then some ⟨.opt, .opt, 0, 0, fun _ => false, fun o => o.d != 0 || o.b != 0 || o.mf 9 6 != 0, .mclr⟩
    else if o.f == 1 && o.fx == 0 then some ⟨.opt, .opt, 0, 0, fun o => !FmtClass.drain.has (o.mf 9 6), fun o => o.b != 0, .mdrain⟩
    else if o.f == 2 && o.fx == 0 then some ⟨.no, .opt, 0, 0, fun _ => false, fun o => o.d != 0 || o.b != 0, .mwait⟩
    else if o.f == 3 && o.fx == 0 then some ⟨.no, .opt, 0, 0, fun _ => false, fun o => o.a != 0 || o.b != 0, .mstat⟩
    else none
  | 4 =>
    if o.f == 0 && o.fx == 0 then some ⟨.no, .opt, 0, 0, fun _ => false, fun o => o.d != 0 || o.b != 0, .mwrr⟩
    else none
  | _ => none

/-- The map entries of page 4. -/
def pick4 (major : Nat) (o : Opnd) : Option Row :=
  match major with
  | 0 =>
    if o.f == 0 then some ⟨.no, .opt, 0, 0, fun o => decide (8 ≤ o.d.toNat % 16) || decide (16 ≤ o.fx.toNat), fun o => decide (16 ≤ o.d.toNat) || o.b != 0, .cpset⟩
    else none
  | 1 =>
    if o.f == 0 && o.fx == 0 then some ⟨.no, .opt, 0, 0, fun o => decide (8 ≤ o.a.toNat % 16), fun o => decide (16 ≤ o.a.toNat) || o.b != 0, .cpgo⟩
    else none
  | 2 =>
    if o.f == 0 && o.fx == 0 then some ⟨.no, .opt, 0, 0, fun o => decide (8 ≤ o.a.toNat % 16), fun o => decide (16 ≤ o.a.toNat) || o.b != 0, .cpdone⟩
    else none
  | 3 =>
    if o.f == 0 && o.fx == 0 then some ⟨.no, .opt, 0, 0, fun o => decide (8 ≤ o.a.toNat % 16), fun o => decide (16 ≤ o.a.toNat) || o.b != 0, .cpwait⟩
    else none
  | 4 =>
    if o.f == 0 && o.fx == 0 then some ⟨.no, .opt, 0, 0, fun o => !(o.d.toNat / 8 == 1), fun o => o.b != 0, .sbind⟩
    else if o.f == 1 && o.fx == 0 then some ⟨.no, .opt, 0, 0, fun o => !(o.d.toNat / 8 == 1), fun o => o.b != 0, .sbindw⟩
    else if o.f == 2 && o.fx == 0 then some ⟨.no, .opt, 0, 0, fun o => !(o.d.toNat / 8 == 3), fun o => o.b != 0, .sbindv⟩
    else if o.f == 3 && o.fx == 0 then some ⟨.no, .opt, 0, 0, fun o => !(o.d.toNat / 8 == 3), fun o => o.b != 0, .sbindvw⟩
    else none
  | 5 =>
    if o.f == 0 && o.fx == 0 then some ⟨.no, .opt, 0, 0, fun o => !(o.a.toNat / 8 == 1 || o.a.toNat / 8 == 3), fun o => o.d != 0 || o.b != 0, .sunbind⟩
    else if o.f == 1 && o.fx == 0 then some ⟨.no, .opt, 0, 0, fun o => !(o.a.toNat / 8 == 1 || o.a.toNat / 8 == 3), fun o => o.b != 0, .sstat⟩
    else none
  | 6 =>
    if o.fx == 0 then some ⟨.no, .opt, 0, 0, fun o => !(o.a.toNat / 8 == 1 || o.a.toNat / 8 == 3), fun o => o.b != 0, .bstop⟩
    else none
  | 7 =>
    if o.fx == 0 then some ⟨.no, .opt, 0, 0, fun o => !(o.a.toNat / 8 == 1 || o.a.toNat / 8 == 3), fun o => o.d != 0 || o.b != 0, .sskip⟩
    else none
  | _ => none

/-- The map entries of page 5. -/
def pick5 (major : Nat) (o : Opnd) : Option Row :=
  match major with
  | 0 =>
    if o.f == 0 && o.fx == 0 then some ⟨.no, .opt, 0, 0, fun _ => false, fun o => o.b != 0, .wlaunch⟩
    else none
  | 1 =>
    if o.f == 0 && o.fx == 0 then some ⟨.no, .opt, 0, 0, fun _ => false, fun o => o.a != 0 || o.b != 0, .wnext⟩
    else none
  | 2 =>
    if o.f == 0 && o.fx == 0 then some ⟨.no, .opt, 0, 0, fun _ => false, fun o => o.b != 0, .wsteal⟩
    else none
  | 3 =>
    if o.f == 0 && o.fx == 0 then some ⟨.no, .opt, 0, 0, fun o => decide (6 ≤ o.a.toNat % 16), fun o => decide (16 ≤ o.a.toNat) || o.b != 0, .wstat⟩
    else if o.f == 1 && o.fx == 0 then some ⟨.no, .opt, 0, 0, fun _ => false, fun o => o.d != 0 || o.b != 0, .wjoin⟩
    else if o.f == 2 && o.fx == 0 then some ⟨.no, .opt, 0, 0, fun _ => false, fun o => o.d != 0 || o.a != 0 || o.b != 0, .wdone⟩
    else none
  | 4 =>
    if o.f == 0 && o.fx == 0 then some ⟨.no, .opt, 0, 0, fun o => decide (8 ≤ o.a.toNat % 16), fun o => o.d != 0 || decide (16 ≤ o.a.toNat) || o.b != 0, .qarrive⟩
    else if o.f == 1 && o.fx == 0 then some ⟨.no, .opt, 0, 0, fun o => decide (8 ≤ o.a.toNat % 16), fun o => o.d != 0 || decide (16 ≤ o.a.toNat) || o.b != 0, .qwait⟩
    else if o.f == 2 && o.fx == 0 then some ⟨.no, .opt, 0, 0, fun o => decide (8 ≤ o.a.toNat % 16), fun o => decide (16 ≤ o.a.toNat) || o.b != 0, .qstat⟩
    else if o.f == 3 && o.fx == 0 then some ⟨.no, .opt, 0, 0, fun o => decide (8 ≤ o.a.toNat % 16), fun o => decide (16 ≤ o.a.toNat) || o.b != 0, .qcfg⟩
    else none
  | _ => none

/-- The map entries of page 6. -/
def pick6 (major : Nat) (o : Opnd) : Option Row :=
  match major with
  | 0 =>
    if o.f == 0 && o.fx == 0 then some ⟨.no, .opt, 0, 0, fun o => decide (32 ≤ o.d.toNat), fun o => decide (16 ≤ o.a.toNat) || o.b != 0, .sendv⟩
    else if o.f == 1 && o.fx == 0 then some ⟨.no, .opt, 0, 0, fun _ => false, fun o => decide (16 ≤ o.a.toNat) || o.b != 0, .sendt⟩
    else if o.f == 2 && o.fx == 0 then some ⟨.no, .opt, 0, 0, fun _ => false, fun o => decide (16 ≤ o.a.toNat) || o.b != 0, .sendg⟩
    else if o.f == 3 && o.fx == 0 then some ⟨.no, .opt, 0, 0, fun _ => false, fun o => decide (16 ≤ o.a.toNat) || o.b != 0, .sendc⟩
    else none
  | 1 =>
    if o.f == 0 && o.fx == 0 then some ⟨.no, .opt, 0, 0, fun o => decide (32 ≤ o.d.toNat), fun o => decide (16 ≤ o.a.toNat) || o.b != 0, .recvv⟩
    else if o.f == 1 && o.fx == 0 then some ⟨.no, .opt, 0, 0, fun _ => false, fun o => decide (16 ≤ o.a.toNat) || o.b != 0, .recvt⟩
    else if o.f == 2 && o.fx == 0 then some ⟨.no, .opt, 0, 0, fun _ => false, fun o => decide (16 ≤ o.a.toNat) || o.b != 0, .recvg⟩
    else if o.f == 3 && o.fx == 0 then some ⟨.no, .opt, 0, 0, fun _ => false, fun o => decide (16 ≤ o.a.toNat) || o.b != 0, .peek⟩
    else none
  | 2 =>
    if o.f == 0 && o.fx == 0 then some ⟨.no, .opt, 0, 0, fun _ => false, fun o => decide (16 ≤ o.a.toNat) || o.b != 0, .fwdc⟩
    else none
  | 3 =>
    if o.f == 0 && o.fx == 0 then some ⟨.no, .opt, 0, 0, fun _ => false, fun o => o.a != 0 || o.b != 0, .proof⟩
    else none
  | 4 =>
    if o.f == 0 && o.fx == 0 then some ⟨.no, .req, 0, 0, fun _ => false, fun _ => false, .mail⟩
    else if o.f == 1 && o.fx == 0 then some ⟨.no, .opt, 0, 0, fun _ => false, fun o => o.b != 0, .mreply⟩
    else if o.f == 2 && o.fx == 0 then some ⟨.no, .opt, 0, 0, fun _ => false, fun o => o.b != 0, .mwaitf⟩
    else none
  | 5 =>
    if o.f == 0 && o.fx == 0 then some ⟨.no, .req, 0, 0, fun _ => false, fun _ => false, .dreq⟩
    else if o.f == 1 && o.fx == 0 then some ⟨.no, .req, 0, 0, fun _ => false, fun _ => false, .xlate⟩
    else none
  | 6 =>
    if o.f == 0 && o.fx == 0 && o.b == 0 then some ⟨.no, .opt, 0, 0, fun _ => false, fun o => decide (16 ≤ o.a.toNat), .bindh⟩
    else if o.f == 0 && o.fx == 0 && o.b == 1 then some ⟨.no, .opt, 0, 0, fun _ => false, fun o => decide (16 ≤ o.a.toNat), .bindhMail⟩
    else if o.f == 0 && o.fx == 0 && o.b == 2 then some ⟨.no, .opt, 0, 0, fun _ => false, fun o => decide (16 ≤ o.a.toNat) || o.a != 0, .bindhMlimit⟩
    else if o.f == 1 && o.fx == 0 && o.b == 0 then some ⟨.no, .opt, 0, 0, fun _ => false, fun o => decide (16 ≤ o.a.toNat), .pstat⟩
    else if o.f == 1 && o.fx == 0 && o.b == 1 then some ⟨.no, .opt, 0, 0, fun _ => false, fun o => decide (16 ≤ o.a.toNat), .pstatOutput⟩
    else if o.f == 1 && o.fx == 0 && o.b == 2 then some ⟨.no, .opt, 0, 0, fun _ => false, fun o => decide (16 ≤ o.a.toNat) || o.a != 0, .pstatMail⟩
    else none
  | _ => none

/-- The map entries of page 7. -/
def pick7 (major : Nat) (o : Opnd) : Option Row :=
  match major with
  | 0 =>
    if o.f == 0 && o.fx == 0 then some ⟨.no, .req, 0, 0, fun _ => false, fun _ => false, .ctxsave⟩
    else if o.f == 1 && o.fx == 0 then some ⟨.no, .req, 0, 0, fun _ => false, fun _ => false, .ctxload⟩
    else none
  | 1 =>
    if o.f == 0 && o.fx == 0 then some ⟨.no, .opt, 0, 0, fun _ => false, fun o => o.b != 0, .engrd⟩
    else if o.f == 1 && o.fx == 0 then some ⟨.no, .req, 0, 0, fun _ => false, fun o => o.d != 0, .engwr⟩
    else none
  | 2 =>
    if o.f == 0 && o.fx == 0 then some ⟨.no, .opt, 0, 0, fun _ => false, fun o => o.b != 0, .qload⟩
    else if o.f == 1 && o.fx == 0 then some ⟨.no, .opt, 0, 0, fun _ => false, fun o => o.b != 0, .qsave⟩
    else if o.f == 2 && o.fx == 0 then some ⟨.no, .req, 0, 0, fun _ => false, fun _ => false, .qmap⟩
    else if o.f == 3 && o.fx == 0 then some ⟨.no, .opt, 0, 0, fun _ => false, fun o => o.b != 0, .qunmap⟩
    else none
  | 3 =>
    if o.f == 0 && o.fx == 0 then some ⟨.no, .req, 0, 0, fun _ => false, fun _ => false, .fmload⟩
    else if o.f == 1 && o.fx == 0 then some ⟨.no, .opt, 0, 0, fun _ => false, fun o => o.b != 0, .fmswap⟩
    else if o.f == 2 && o.fx == 0 then some ⟨.no, .req, 0, 0, fun _ => false, fun _ => false, .fmdrain⟩
    else if o.f == 3 && o.fx == 0 then some ⟨.no, .opt, 0, 0, fun _ => false, fun o => o.b != 0, .fmclear⟩
    else none
  | 4 =>
    if o.f == 0 && o.fx == 0 then some ⟨.no, .req, 0, 0, fun _ => false, fun _ => false, .tagbind⟩
    else none
  | 5 =>
    if o.f == 0 && o.fx == 0 then some ⟨.no, .req, 0, 0, fun _ => false, fun _ => false, .migrate⟩
    else none
  | 6 =>
    if o.f == 0 && o.fx == 0 then some ⟨.no, .opt, 0, 0, fun _ => false, fun o => o.b != 0, .quoinrd⟩
    else none
  | 7 =>
    if o.f == 0 && o.fx == 0 then some ⟨.no, .req, 0, 0, fun _ => false, fun _ => false, .kload⟩
    else none
  | 8 =>
    if o.f == 0 && o.fx == 0 then some ⟨.no, .opt, 0, 0, fun _ => false, fun o => o.b != 0, .clkplan⟩
    else none
  | _ => none

/-- The map entry that an operand record's page, major, function and function extension select; none where the map has none. -/
def pick (page major : Nat) (o : Opnd) : Option Row :=
  match page with
  | 0 => pick0 major o
  | 1 => pick1 major o
  | 2 => pick2 major o
  | 3 => pick3 major o
  | 4 => pick4 major o
  | 5 => pick5 major o
  | 6 => pick6 major o
  | 7 => pick7 major o
  | _ => none

end Sys2Proof
end

