-- ==== Sys2Proof/WellFormed.lean ====
section
/-! DEFINITION. Well-formed instructions: operand records that some words of the encoding stand for (R44 to R50). -/

namespace Sys2Proof

/-- Width of the base word's part of the immediate (R50). -/
def Fmt.immWidth : Fmt → Nat
  | .di => 6 | .gb => 6 | .bo => 8 | .da => 0 | .zx => 0

/-- The immediate fits its assembled width (R50). -/
def immFits (uns : Bool) (width : Nat) (imm : Int) : Bool :=
  if uns || width == 0 then decide (0 ≤ imm) && decide (imm < 2 ^ width)
  else decide (-(2 ^ (width - 1) : Int) ≤ imm) && decide (imm < 2 ^ (width - 1))

/-- Fields that the format does not carry are zero (R44, R49). -/
def Opnd.fits (o : Opnd) : Fmt → Bool
  | .da => o.x == 0
  | .di => o.x == 0 && o.f == 0 && o.a.toNat % 16 == 0
  | .gb => o.x == 0 && o.f == 0 && o.a.toNat % 16 == 0
  | .bo => o.x == 0 && o.d == 0 && o.a == 0 && o.b == 0 && !o.r
  | .zx => o.f == 0 && o.d == 0 && o.a == 0 && o.b == 0 && !o.r

/-- Fields that an absent prefix would carry are zero, and the chain has at most four prefixes, three of them PX.I (R47, R48). -/
def Opnd.chainOk (o : Opnd) (page : Nat) : Bool :=
  (o.p || (page == 0 && o.fx == 0)) &&
  (o.r || (decide (o.d.toNat < 16) && decide (o.a.toNat < 16) && o.b == 0)) &&
  decide (o.ni ≤ 3) && decide (o.len ≤ 5)

/-- A map entry accepts the prefixes of an operand record and finds nothing illegal in it. -/
def Row.legal (w : Row) (o : Opnd) : Bool :=
  w.m.ok o.m.isSome && w.r.ok o.r && decide (w.imin ≤ o.ni) && decide (o.ni ≤ w.imax) && !w.illegal o

/-- An encoded instruction's operands are what its format, its chain and its map entry allow. -/
def Opnd.wf (o : Opnd) (page major : Nat) : Bool :=
  match layout page major, pick page major o with
  | some (fmt, uns), some row =>
    o.fits fmt && o.chainOk page && immFits uns (fmt.immWidth + 10 * o.ni) o.imm && row.legal o && !row.reserved o
  | _, _ => false

/-- The map entry that an operand record selects builds this instruction, and none other. -/
def Instr.selected (i : Instr) (page major : Nat) (o : Opnd) : Bool :=
  match pick page major o with
  | some row => row.build o == i
  | none => false

/-- A well-formed instruction. A step that no word encodes is well-formed: its parameters only name parts of the state. -/
def Instr.wf (i : Instr) : Bool :=
  match i.enc with
  | some (page, major, o) => o.wf page major && i.selected page major o
  | none => true

end Sys2Proof
end

