-- ==== Sys2Proof/Decode.lean ====
section
/-! DEFINITION. The decoder, total on any words, which rejects by name, and the encoder beside it (R43 to R69, R193). -/

namespace Sys2Proof

/-- Why words are no instruction (R52): nothing to decode, or the cause with its `%einfo` and the length in words. -/
inductive DecodeFault where
  | empty
  | prefixChain (info : Word)
  | illegal (info : Word) (len : Nat)
  | reserved (info : Word) (len : Nat)
deriving DecidableEq, Repr

/-- Bits [lo + n − 1:lo] of a word. -/
def Parcel.bits (w : Parcel) (lo n : Nat) : Nat := w.toNat / 2 ^ lo % 2 ^ n

/-- The major of a word (R43). -/
def Parcel.major (w : Parcel) : Nat := w.bits 10 5

/-- A word whose major is that of a prefix (R46). -/
def Parcel.isPrefix (w : Parcel) : Bool := decide (28 ≤ w.major)

/-- Place of a prefix in the order PX.P, PX.M, PX.R, PX.I (R47). -/
def Parcel.place (w : Parcel) : Nat :=
  if w.major = 30 then 0 else if w.major = 31 then 1 else if w.major = 29 then 2 else 3

/-- The prefixes read so far. -/
structure Chain where
  p : Option (BitVec 10)
  m : Option (BitVec 10)
  r : Option (BitVec 10)
  imm : Nat
  ni : Nat
  count : Nat
  place : Nat
  first : Option Parcel
deriving DecidableEq, Repr

/-- No prefix. -/
def Chain.nil : Chain := ⟨none, none, none, 0, 0, 0, 0, none⟩

/-- `%einfo` of PREFIX_CHAIN (R194): the case, the offending word and its position in the chain. -/
def chainInfo (case : Nat) (w : Parcel) (pos : Nat) : Word := BitVec.ofNat 64 (case + 16 * w.toNat + 2 ^ 20 * pos)

/-- The case of R47 that a further prefix word makes, if it makes one (R194 numbers them). -/
def Chain.fault (c : Chain) (w : Parcel) : Option Nat :=
  if w.bits 15 1 = 1 then some 1
  else if c.count = 4 then some 2
  else if w.place < c.place then some 3
  else if c.count ≠ 0 ∧ w.place = c.place ∧ w.place ≠ 3 then some 4
  else if w.place = 3 ∧ c.ni = 3 then some 5
  else none

/-- The chain with a further prefix. -/
def Chain.add (c : Chain) (w : Parcel) : Chain :=
  let v : BitVec 10 := BitVec.ofNat 10 (w.bits 0 10)
  let c := { c with count := c.count + 1, place := w.place, first := some (c.first.getD w) }
  match w.place with
  | 0 => { c with p := some v }
  | 1 => { c with m := some v }
  | 2 => { c with r := some v }
  | _ => { c with imm := c.imm * 1024 + v.toNat, ni := c.ni + 1 }

/-- Read prefixes up to the base word. The words end where X ends (R45), so that running out is case 6. -/
def readChain (c : Chain) (last : Parcel) : List Parcel → Except DecodeFault (Chain × Parcel)
  | [] => .error (if c.count = 0 then .empty else .prefixChain (chainInfo 6 last (c.count - 1)))
  | w :: ws =>
    if w.isPrefix then
      match c.fault w with
      | some k => .error (.prefixChain (chainInfo k w c.count))
      | none => readChain (c.add w) w ws
    else .ok (c, w)

/-- The page of a chain (R48). -/
def Chain.page (c : Chain) : Nat := (c.p.getD 0).toNat / 128

/-- The immediate of a chain and a base word's field (R50). -/
def assemble (uns : Bool) (width hi low : Nat) (w0 : Nat) : Int :=
  let raw := hi * 2 ^ w0 + low
  if !uns && decide (width ≠ 0) && decide (2 ^ (width - 1) ≤ raw) then (raw : Int) - 2 ^ width else raw

/-- The operand record of a chain and a base word under a format (R44, R49, R50). -/
def opndOf (fmt : Fmt) (uns : Bool) (c : Chain) (w : Parcel) : Opnd :=
  let rr := (c.r.getD 0).toNat
  let w0 := fmt.immWidth
  let low := match fmt with
    | .di => w.bits 0 6 | .gb => w.bits 0 6 | .bo => w.bits 0 8 | .da => 0 | .zx => 0
  let regs := match fmt with
    | .da => true | .di => true | .gb => true | .bo => false | .zx => false
  { mark := w.bits 15 1 == 1
    p := c.p.isSome
    fx := BitVec.ofNat 7 (c.p.getD 0).toNat
    m := c.m
    r := c.r.isSome
    ni := c.ni
    d := if regs then BitVec.ofNat 6 (rr / 256 * 16 + w.bits 6 4) else 0
    a := if regs then BitVec.ofNat 6 (rr / 64 % 4 * 16 + (if fmt = .da then w.bits 2 4 else 0)) else 0
    b := if regs then BitVec.ofNat 6 rr else 0
    f := match fmt with
      | .da => BitVec.ofNat 2 (w.bits 0 2)
      | .bo => BitVec.ofNat 2 (w.bits 8 2)
      | .di => 0 | .gb => 0 | .zx => 0
    x := if fmt = .zx then BitVec.ofNat 10 (w.bits 0 10) else 0
    imm := assemble uns (w0 + 10 * c.ni) c.imm low w0 }

/-- `%einfo` in layout I (R193): base word, first prefix word, page, number of prefixes, system register number. -/
def infoI (base : Nat) (first : Nat) (page count sysreg : Nat) : Word :=
  BitVec.ofNat 64 (base + 2 ^ 16 * first + 2 ^ 32 * page + 2 ^ 35 * count + 2 ^ 38 * (sysreg % 4096))

/-- The system register number that MFS or MTS names; 0 for every other instruction (R193). -/
def sysregOf (page major : Nat) (o : Opnd) : Nat :=
  if page = 1 ∧ (major = 15 ∨ major = 16) then o.imm.toNat else 0

/-- Decode a chain and its base word: ILLEGAL_ENCODING before RESERVED_NONZERO (R52). BO and ZX take no PX.R (R49). -/
def decodeBase (c : Chain) (w : Parcel) : Except DecodeFault (Instr × Nat) :=
  let page := c.page
  let len := c.count + 1
  let info (n : Nat) := infoI w.toNat (c.first.getD 0).toNat page c.count n
  match layout page w.major with
  | none => .error (.illegal (info 0) len)
  | some (fmt, uns) =>
    let o := opndOf fmt uns c w
    match pick page w.major o with
    | none => .error (.illegal (info 0) len)
    | some row =>
      let n := sysregOf page w.major o
      if !row.legal o then .error (.illegal (info n) len)
      else if row.reserved o then .error (.reserved (info n) len)
      else .ok (row.build o, len)

/-- The decoder: the instruction that the words begin with, and its length in words. -/
def decode (ws : List Parcel) : Except DecodeFault (Instr × Nat) :=
  match readChain Chain.nil 0 ws with
  | .error e => .error e
  | .ok (c, w) => decodeBase c w

/-! ## The encoder -/

/-- A prefix word (R46). -/
def prefixWord (major payload : Nat) : Parcel := BitVec.ofNat 16 (major * 1024 + payload)

/-- The immediate's assembled bits, as a number (R50). -/
def immBits (width : Nat) (imm : Int) : Nat := (imm % (2 ^ width : Int)).toNat

/-- The PX.I words of `n` tens of bits, the most significant first (R46). -/
def immWords : Nat → Nat → List Parcel
  | 0, _ => []
  | n + 1, v => prefixWord 28 (v / 1024 ^ n % 1024) :: immWords n v

/-- The base word (R43, R44). -/
def baseWord (fmt : Fmt) (major : Nat) (o : Opnd) : Parcel :=
  let low := immBits fmt.immWidth o.imm
  let payload := match fmt with
    | .da => o.d.toNat % 16 * 64 + o.a.toNat % 16 * 4 + o.f.toNat
    | .di => o.d.toNat % 16 * 64 + low
    | .gb => o.d.toNat % 16 * 64 + low
    | .bo => o.f.toNat * 256 + low
    | .zx => o.x.toNat
  BitVec.ofNat 16 (o.mark.toNat * 32768 + major * 1024 + payload)

/-- The words of an operand record under a page, a major and a format. -/
def encodeWith (page major : Nat) (fmt : Fmt) (o : Opnd) : List Parcel :=
  (if o.p then [prefixWord 30 (page * 128 + o.fx.toNat)] else []) ++
  (match o.m with | some v => [prefixWord 31 v.toNat] | none => []) ++
  (if o.r then [prefixWord 29 (o.d.toNat / 16 * 256 + o.a.toNat / 16 * 64 + o.b.toNat)] else []) ++
  immWords o.ni (immBits (fmt.immWidth + 10 * o.ni) o.imm / 2 ^ fmt.immWidth) ++
  [baseWord fmt major o]

/-- The words of an instruction; none of a step that no word encodes. -/
def encode (i : Instr) : List Parcel :=
  match i.enc with
  | some (page, major, o) =>
    match layout page major with
    | some (fmt, _) => encodeWith page major fmt o
    | none => []
  | none => []

/-- `%einfo` in layout I of an instruction that has decoded (PRIVILEGE, VECTOR_SHAPE; R194). -/
def Instr.info (i : Instr) : Word :=
  match i.enc with
  | some (page, major, o) =>
    let ws := encode i
    infoI ((ws.getLast?.getD 0).toNat) (if ws.length = 1 then 0 else (ws.headD 0).toNat) page (ws.length - 1)
      (sysregOf page major o)
  | none => 0

/-- Length in words of an instruction; 0 of a step that no word encodes. -/
def Instr.len (i : Instr) : Nat :=
  match i.enc with
  | some (_, _, o) => o.len
  | none => 0

/-- The switch marker of an instruction (R43). -/
def Instr.mark (i : Instr) : Bool :=
  match i.enc with
  | some (_, _, o) => o.mark
  | none => false

/-! ## The opcode table's words -/

/-- The words of a table row's bits, in address order, then words of zero. The table writes a prefixed row with its prefix in
the high half (assumption 11), so a high half that is a prefix word comes first. -/
def tableWords (nbits w : Nat) : List Parcel :=
  let low : Parcel := BitVec.ofNat 16 w
  let high : Parcel := BitVec.ofNat 16 (w / 65536)
  if nbits ≤ 16 then [low, 0, 0, 0, 0]
  else if high.isPrefix then [high, low, BitVec.ofNat 16 (w / 2 ^ 32), 0, 0]
  else [low, high, BitVec.ofNat 16 (w / 2 ^ 32), 0, 0]

/-- The instruction that the decoder reads from a table row's bits. -/
def decodeTableWord (nbits w : Nat) : Option Instr :=
  match decode (tableWords nbits w) with
  | .ok (i, _) => some i
  | .error _ => none

end Sys2Proof
end

