-- ==== Sys2Proof/Machine/State.lean ====
section
/-! DEFINITION. The state of the module, the reasons a step can stop, and the state after reset. -/

namespace Sys2Proof.Machine

/-- What a step is to do next: let a core of a tile issue, or let a named step of the opcode table happen. It is the schedule
that makes one deterministic step of the interleavings of the module's agents (assumption 5). -/
inductive Due where
  | issue (tile core : Nat)
  /-- reference time passes, in ns -/
  | pass (ns : Nat)
  | event (i : Instr)
deriving DecidableEq, Repr

/-- The context whose instruction is being executed. -/
structure Cur where
  tile : Nat
  core : Nat
  ctx : Nat
deriving DecidableEq, Repr

/-- What the model keeps beside the machine: the schedule, the context under way, tickets that order waits, the counter that free
values are drawn with, and the count of the steps that the schedule left open (assumptions 3 and 5). -/
structure Model where
  agenda : List Due
  cur : Cur
  ticket : Nat
  fresh : Nat
  turn : Nat
deriving DecidableEq, Repr

/-- The platform outside the tiles and the D store (chapters 17 to 19). -/
structure Platform where
  power : Power
  time : TimeMaster
  root : Root
  jtag : Jtag
  eth : Sparse EthPort
  links : Sparse Link
  groups : Sparse Nat
  members : Sparse Nat
  module : Nat
  /-- frames sent to the host, newest first -/
  sent : List FrameOut
  /-- modules out of range or unreachable whose tokens were discarded at a link (R472) -/
  linkFaults : List Word
  /-- the micro-kernel's log of spares brought into use (R409), oldest first, 32 bytes each -/
  spareLog : List (List Byte)
  /-- units of engines 0x09 and 0x0D, which the tiles share, that their control items hold (R405), as `TileEngines.holds` -/
  holds : List Nat
deriving DecidableEq, Repr

/-- The state of an FW1 module. -/
structure State where
  tiles : Sparse Tile
  dram : Dram
  actors : Sparse DramActor
  /-- tag bindings (R15, R16): the tile, DRAM actor or endpoint of a tag -/
  tags : Sparse Nat
  chases : Sparse Chase
  rebals : Sparse Rebalancer
  galleys : GalleyService
  plat : Platform
  net : List Msg
  /-- reference time of the module in ns (R441) -/
  now : Nat
  model : Model
deriving DecidableEq, Repr

/-- Why the machine stops with a fault. -/
inductive Fault where
  /-- no meaning raises it: every fault that the spec describes is a trap, a notice or a status, and a next state. Safe. -/
  | none
deriving DecidableEq, Repr

/-- Why an instruction has no meaning. -/
inductive Refusal where
  /-- raised by an arm of `exec` whose instruction is not modelled. Safe: the machine stops where the hardware goes on. -/
  | notModelled (mnemonic : String)
deriving DecidableEq, Repr

/-! ## The values that the parts hold after power-up -/

/-- `%tstate` at reset (R180): te is 1, every other field 0. -/
def TState.reset : TState :=
  { priv := false, ppriv := false, te := true, intrap := false, pclass := 0, skip := false, nr := false, len := 0
    notice := false, alloc := false, pd := false }

/-- The trap registers at reset (R180). -/
def TrapRegs.reset : TrapRegs := { cause := 0, epc := 0, einfo := 0, ts := TState.reset, ksave := [] }

/-- The per-context system registers at reset (R42, R88, R89, R108, R182, R183). -/
def CtxRegs.reset : CtxRegs :=
  { cls := 0, cap := 1, hbudget := 0, bkey := 0, ilock := 0, fswitch := 0, fflags := 0, fmode := 1, mstat := 0 }

/-- A context's state as a sender of mail before it has sent any. -/
def SenderState.reset : SenderState := { listed := none, reserved := none, notice := none, turned := none }

/-- A free context as power-up leaves it (R134, R454 step 7). -/
def Ctx.reset : Ctx :=
  { status := .free, handler := .none, regs := { g := [], v := [], k := [] }, trap := TrapRegs.reset, sys := CtxRegs.reset
    pc := 0, pcFrom := none, loops := [], flights := [], words := 0, waited := 0, since := 0, granted := false, stalled := false, behind := false, ahead := false
    started := false, pend := none, kept := none, budget0 := 0, bcycles := 0, acks := 0, sender := SenderState.reset }

/-- A local memory of zeros with no error (R454, step 3). -/
def LocalMem.zero : LocalMem := { bytes := [], bad := [] }

/-- A walker with nothing to do. -/
def Walker.reset : Walker :=
  { piece := none, open_ := [], nextId := 1, notices := [], saving := false, claims := [], asking := none, answer := [] }

/-- A matrix queue with no command. -/
def MQueue.reset : MQueue :=
  { done := 1, next := 1, cmds := [], pos := 0, flags := 0, held := false, fault := none, ending := none, dropped := [] }

/-- A core at reset: every context free (R454, step 7), every register at its reset value (R180, R181, R110, R176, R285). -/
def Core.reset : Core :=
  { ctxs := []
    issue := { current := none, agedServed := false, idle := 0, gated := false, halted := false, stepping := false }
    evq := { ready := [], held := 0, late := [] }, tvec := 0, ktimer := 0, npend := 0, ninfo := [], wdesc := [], cyc := 0, freqReq := 7
    a := LocalMem.zero, c := LocalMem.zero, w := LocalMem.zero, streams := [], walker := Walker.reset
    spa := { isS32 := false, entries := [] }, mq := MQueue.reset }

/-- An unbound input port. -/
def InPort.reset : InPort :=
  { arc := false, bound := false, auto := false, inv := 0, sticky := 0, entry := 0, budget := 0, queue := [], uses := none
    sealed_ := none, src := none }

/-- An output port with no arc. -/
def OutPort.reset : OutPort :=
  { dtag := 0, dport := 0, arc := false, auto := false, seq := 0, slots := 0, owed := [], seamed := false }

/-- An actor descriptor at reset (R320). -/
def ActorDesc.reset : ActorDesc :=
  { args := 0, fcore := 0, cfire := false, fcap := 1, mlimit := 16, mbase := 0, mcap := 1, bkey := 0 }

/-- A port engine with nothing configured. -/
def PortEngine.reset : PortEngine :=
  { inputs := [], outputs := [], desc := ActorDesc.reset, mails := [], firing := none, refusals := [], reservations := []
    replies := [], mailIds := [], probed := false, held := false, frozen := false, stub := none, proofAt := 0 }

/-- A translation node with an empty buffer. -/
def Xnode.reset : Xnode :=
  { root := 0, key := 0, chase := 0, rgen := 0, buf := [], pins := [], held := [], remote := [], dreqs := [], marks := [], seenMin := none
    risen := false, sentMin := none, sentAt := 0, flushed := [], shooting := [] }

/-- The matrix arbiter with equal weights (R298). -/
def MArbiter.reset : MArbiter := { weights := [1, 1, 1, 1], cur := 0, credit := 1, fresh := false, loader := 3 }

/-- The engines of a tile at rest. -/
def TileEngines.reset : TileEngines :=
  { quoins := [], channels := [], quires := [], barriers := [], gangs := [], arbiter := MArbiter.reset, slotTable := [], holds := [], written := []
    xnode := Xnode.reset }

/-- The clock and power engine at reset (R434, R442, R444). -/
def TileClock.reset : TileClock :=
  { step := 7, tcap := 31, zcap := 25, thr := false, lock := false, src := 0, hold := false, depth := 0, plan := [], trace := []
    total := 0, clamp := 3000, stepAt := 0, offset := 0, aim := 0, correctedAt := 0, watch := [], tasks := [], ballastUntil := 0
    idleSince := 0, asleep := false, sharedAt := 0, clampedAt := 0 }

/-- No window measured. -/
def Gauge.reset : Gauge := { load := [], low := 31, window := 0, occ := 0, lowest := 31 }

/-- A tile before boot: not yet found live, nothing bound, every memory zero. -/
def Tile.reset : Tile :=
  { place := { live := false, working := false, chase := none, member := 0, shadow := none, stateArea := (0, 0), faultLog := [], tasks := [] }
    t := LocalMem.zero, x := [], xbad := [], cores := [], eng := TileEngines.reset, port := PortEngine.reset, clk := TileClock.reset
    gauge := Gauge.reset }

/-- A DRAM actor with no key loaded and no error counted. -/
def DramActor.reset : DramActor :=
  { keys := [], errors := [], spareUsed := false, dir := [], collapsed := [], lost := false }

/-- A chase of which nothing is known. -/
def Chase.reset : Chase :=
  { ccb := none, run := none, loaded := none, work := .none, by_ := none, inputs := []
    reserved := [], reservedUntil := 0, dead := [], struck := false, ended := false }

/-- A rebalancer of a chase that runs none. -/
def Rebalancer.reset : Rebalancer := { word := 0, windows := [], cool := [], migration := none, seen := 0 }

/-- A session that is not enabled. -/
def Session.reset : Session := { word := 0, expect := 0, acked := 0, seq := 0 }

/-- An Ethernet port whose link is down. -/
def EthPort.reset : EthPort :=
  { linkUp := false, syncSeen := false, sessions := [], rings := [], pausing := [], dropping := [], stuck := [], held := [], pausedTo := []
    outbox := [], counters := [], config := [] }

/-- A link of eight lanes and its spare (R473). -/
def Link.reset : Link :=
  { lanes := 8, spareFree := true, failed := [], rxNext := 0, txNext := 0, retry := [], wire := [], nak := none, partialTok := []
    inbox := [], waiting := [] }

/-- The fuses of the model's module: all zero but for the defect entries, which name no tile (assumption 2). -/
def Fuses.reset : Fuses :=
  { life := 0, mgrade := 0, serial := 0, dsecret := 0, skhash := 0, dahash := 0, svn := 0, defects := [] }

/-- The root of trust at power-up (R454, step 1). Boot grade 3 is none. -/
def Root.reset : Root :=
  { phase := .powerUp, fuses := Fuses.reset, flash := [], stage := [], kernel := [], steward := [], kernelOk := false
    stewardOk := false, m := 0, log := [], download := none, bootGrade := 3, counts := [], defects := [], debug := 0
    nonce := none, keysLocked := false, writing := none }

/-- The power and alarm state at power-up (R443, R445). -/
def Power.reset : Power :=
  { stewardRunning := false, hung := false, updating := false, heartbeatAt := 0, alarmExternal := false, alarmThermal := false
    alarmSteward := false, clearedAt := 0, throttled := false, threshold := 95, tripped := false, zcaps := [] }

/-- The JTAG port at test-logic reset: IDCODE is selected (R461). -/
def Jtag.reset : Jtag := { ir := 1, cells := [], drive := false, bypass := false, out := [] }

/-- A galley entry of the island that nothing has written. -/
def GalleyEntry.reset : GalleyEntry :=
  { en := false, head := 0, tail := 0, age := 0, pending := false, mapped := false, slot := 0, zone := 0, prio := 0, cap := 0, via := none }

/-- A galley slot that holds no galley. -/
def GalleySlot.reset : GalleySlot :=
  { ring := 0, rsize := 0, chase := 0, galley := 0, mapped := false, fault := none, pendRec := none, stopped := false
    unmapping := false, count := 0 }

/-- The galley service before boot has named its service tiles. -/
def GalleyService.reset : GalleyService :=
  { entries := [], slots := [], queues := [], tableBase := 0, serviceTags := [], snapBases := [], agedAt := 0, open_ := [], jobs := [], kicks := [] }

/-- The platform at power-up. -/
def Platform.reset : Platform :=
  { power := Power.reset, time := { port := none, lastSync := 0, offset := 0, freeRunning := true, lastToken := 0 }
    root := Root.reset, jtag := Jtag.reset, eth := [], links := [], groups := [], members := [], module := 0, sent := []
    linkFaults := [], spareLog := [], holds := [] }

/-- The module right after power-up, before boot (R454): the reference time is 0 (R441), every memory lists nothing, no tag is
bound, no tile has been tested, and the root of trust stands at step 1. -/
def State.reset : State :=
  { tiles := [], dram := { bytes := [], keyOf := [], poison := [] }, actors := [], tags := [], chases := [], rebals := []
    galleys := GalleyService.reset, plat := Platform.reset, net := [], now := 0
    model := { agenda := [], cur := ⟨0, 0, 0⟩, ticket := 0, fresh := 0, turn := 0 } }

end Sys2Proof.Machine
end

