-- ==== Sys2Proof/Machine/Ops.lean ====
section
/-! DEFINITION. The named operations over the state: the parts of a tile, registers, local memories and their faults, notices,
taking a trap and returning from one, waits, and how an instruction ends. -/

namespace Sys2Proof.Machine

/-! ## Parts of the module -/

/-- The tile with an index. -/
def State.tile (s : State) (t : Nat) : Tile := s.tiles.get Tile.reset t

/-- The state with a tile replaced. -/
def State.setTile (s : State) (t : Nat) (v : Tile) : State := { s with tiles := s.tiles.put t v }

/-- The state with a tile changed. -/
def State.modTile (s : State) (t : Nat) (f : Tile → Tile) : State := s.setTile t (f (s.tile t))

/-- A core of a tile. -/
def Tile.core (y : Tile) (c : Nat) : Core := y.cores.get Core.reset c

/-- The tile with a core replaced. -/
def Tile.setCore (y : Tile) (c : Nat) (v : Core) : Tile := { y with cores := y.cores.put c v }

/-- A core of the module. -/
def State.core (s : State) (t c : Nat) : Core := (s.tile t).core c

/-- The state with a core changed. -/
def State.modCore (s : State) (t c : Nat) (f : Core → Core) : State :=
  s.modTile t fun y => y.setCore c (f (y.core c))

/-- A context of a core. -/
def Core.ctx (k : Core) (x : Nat) : Ctx := k.ctxs.get Ctx.reset x

/-- The core with a context replaced. -/
def Core.setCtx (k : Core) (x : Nat) (v : Ctx) : Core := { k with ctxs := k.ctxs.put x v }

/-- A context of the module. -/
def State.ctx (s : State) (u : Cur) : Ctx := (s.core u.tile u.core).ctx u.ctx

/-- The state with a context changed. -/
def State.modCtx (s : State) (u : Cur) (f : Ctx → Ctx) : State :=
  s.modCore u.tile u.core fun k => k.setCtx u.ctx (f (k.ctx u.ctx))

/-- The context under way. -/
def State.cur (s : State) : Cur := s.model.cur

/-- The state with another context under way. -/
def State.setCur (s : State) (u : Cur) : State := { s with model := { s.model with cur := u } }

/-- The registers and the rest of the context under way. -/
def State.me (s : State) : Ctx := s.ctx s.cur

/-- The state with the context under way changed. -/
def State.modMe (s : State) (f : Ctx → Ctx) : State := s.modCtx s.cur f

/-- The core under way. -/
def State.myCore (s : State) : Core := s.core s.cur.tile s.cur.core

/-- The state with the core under way changed. -/
def State.modMyCore (s : State) (f : Core → Core) : State := s.modCore s.cur.tile s.cur.core f

/-- The tile under way. -/
def State.myTile (s : State) : Tile := s.tile s.cur.tile

/-- The state with the tile under way changed. -/
def State.modMyTile (s : State) (f : Tile → Tile) : State := s.modTile s.cur.tile f

/-- The state with the engines of a tile changed. -/
def State.modEng (s : State) (t : Nat) (f : TileEngines → TileEngines) : State :=
  s.modTile t fun y => { y with eng := f y.eng }

/-- A unit of a tile's engines is held by its control item (R405). -/
def State.unitHeld (s : State) (t engine unit : Nat) : Bool := (s.tile t).eng.holds.contains (256 * engine + unit)

/-- The state with the port engine of a tile changed. -/
def State.modPort (s : State) (t : Nat) (f : PortEngine → PortEngine) : State :=
  s.modTile t fun y => { y with port := f y.port }

/-- The state with a message sent. -/
def State.post (s : State) (m : Msg) : State := { s with net := s.net ++ [m] }

/-- A fresh ticket: later tickets stand behind earlier ones. -/
def State.ticket (s : State) : Nat := s.model.ticket

/-- The state after a ticket is drawn. -/
def State.drawTicket (s : State) : State := { s with model := { s.model with ticket := s.model.ticket + 1 } }

/-- The state after `n` free values are drawn. -/
def State.draw (s : State) (n : Nat) : State := { s with model := { s.model with fresh := s.model.fresh + n } }

/-- The part of a correction made so far: the counter's rate changes by at most 100 ppm (R441). -/
def TileClock.slew (k : TileClock) (now : Nat) : Int :=
  let d : Int := ((now - k.correctedAt) / 10000 : Nat)
  if k.aim < -d then -d else if d < k.aim then d else k.aim

/-- The reference time of a tile in ns (R441). -/
def State.rtime (s : State) (t : Nat) : Nat := ((s.now : Int) + (s.tile t).clk.offset + (s.tile t).clk.slew s.now).toNat

/-- Take a message out of those in flight. -/
def State.take (s : State) (n : Nat) : Option (Msg × State) :=
  match s.net[n]? with
  | some m => some (m, { s with net := s.net.eraseIdx n })
  | none => none

/-! ## Numbers -/

/-- Bits [lo + n − 1:lo] of a word. -/
def bits (w : Word) (lo n : Nat) : Nat := w.toNat / 2 ^ lo % 2 ^ n

/-- A word of a number. -/
def word (n : Nat) : Word := BitVec.ofNat 64 n

/-- A word of an integer, modulo 2^64. -/
def wordI (n : Int) : Word := BitVec.ofInt 64 n

/-- The value of the low `8 n` bits read as a two's complement integer. -/
def signedOf (n v : Nat) : Int :=
  let m := 2 ^ (8 * n)
  let v := v % m
  if 2 * v < m then (v : Int) else (v : Int) - m

/-- `x` precedes `y` among 32-bit identifiers (R202). -/
def below (x y : BitVec 32) : Bool := let d := (y - x).toNat; decide (1 ≤ d) && decide (d ≤ 2 ^ 31 - 1)

/-- Parity of the set bits of a number below 2^8. -/
def parity8 (n : Nat) : Nat := (List.range 8).foldl (fun p i => (p + n / 2 ^ i) % 2) 0

/-- The tile index of a physical place (R12). -/
def tileAt (col row : Nat) : Nat := row * 160 + col

/-- Column of a tile (R12). -/
def colOf (t : Nat) : Nat := t % 160

/-- Row of a tile (R12). -/
def rowOf (t : Nat) : Nat := t / 160

/-- Zone of a tile (R12). -/
def zoneOf (t : Nat) : Nat := 8 * (rowOf t / 27) + colOf t / 20

/-- The tile-role tag of a tile (R15): kind 0, its number the tile's index (assumption 15). -/
def roleTag (t : Nat) : Tag := BitVec.ofNat 24 t

/-- Kind of a tag (R15). -/
def Tag.kind (g : Tag) : Nat := g.toNat / 2 ^ 21

/-- Name of a tag (R15). -/
def Tag.name (g : Tag) : Nat := g.toNat / 256 % 8192

/-- Member of a tag (R15). -/
def Tag.member (g : Tag) : Nat := g.toNat % 256

/-- A tag of its parts (R15). -/
def Tag.make (kind name member : Nat) : Tag := BitVec.ofNat 24 (kind * 2 ^ 21 + name % 8192 * 256 + member % 256)

/-- The tile bound to a tag, if one is (R16). -/
def State.tileOf (s : State) (g : Tag) : Option Nat :=
  match Tag.kind g with
  | 0 | 1 | 2 => s.tags.find g.toNat
  | _ => none

/-- Physical name of a tile in layout T and the like: column in [7:0], row in [15:8]. -/
def tileName (t : Nat) : Nat := colOf t + 256 * rowOf t

/-! ## Registers -/

/-- The value of a general register: g0 reads as zero (R130). -/
def Ctx.g (k : Ctx) (n : Nat) : Word := if n = 0 then 0 else k.regs.g.get 0 n

/-- The context with a general register written: a write to g0 is discarded (R130). -/
def Ctx.setG (k : Ctx) (n : Nat) (v : Word) : Ctx :=
  if n = 0 then k else { k with regs := { k.regs with g := k.regs.g.set 0 n v } }

/-- The value of a vector register. -/
def Ctx.v (k : Ctx) (n : Nat) : VWord := k.regs.v.get 0 n

/-- The context with a vector register written. -/
def Ctx.setV (k : Ctx) (n : Nat) (v : VWord) : Ctx := { k with regs := { k.regs with v := k.regs.v.set 0 n v } }

/-- The value of a mask register. -/
def Ctx.k (k : Ctx) (n : Nat) : KWord := k.regs.k.get 0 n

/-- The context with a mask register written. -/
def Ctx.setK (k : Ctx) (n : Nat) (v : KWord) : Ctx := { k with regs := { k.regs with k := k.regs.k.set 0 n v } }

/-! ## Local memories -/

/-- Bytes of a local space (R100). W counts its valid part. -/
def Space.size : Space → Nat
  | .t => 0x100000 | .a => 0x20000 | .c => 0x10000 | .w => 0x30000 | .d => 2 ^ 57 | .x => 0x20000

/-- The key rows in force for a T row (R109). -/
def keyRow (key : BitVec 56) (row i : Nat) : Nat :=
  let base := key.toNat / 2 ^ 40 % 256
  let limit := key.toNat / 2 ^ 48 % 256
  if base ≤ row ∧ row ≤ limit then key.toNat / 2 ^ (8 * i) % 256 else 0

/-- The bank of a T address (R107). -/
def bankOf (key : BitVec 56) (a : Nat) : Nat :=
  let row := a / 4096 % 256
  (List.range 5).foldl (fun b i => b + 2 ^ i * ((a / 2 ^ (7 + i) % 2 + parity8 (row &&& keyRow key row i)) % 2)) 0

/-- The stored place of a T address under a key: row, bank and byte (R107). -/
def tPlace (key : BitVec 56) (a : Nat) : Nat := a / 4096 * 4096 + bankOf key a * 128 + a % 128

/-- The key rows of the accesses that use none (R109). -/
def noKey : BitVec 56 := BitVec.ofNat 56 (0xFF * 2 ^ 40)

/-- A byte of T. -/
def LocalMem.readT (m : LocalMem) (key : BitVec 56) (a : Nat) : Byte := m.bytes.read (tPlace key a)

/-- `n` bytes of T from `a`, little-endian (R7). -/
def LocalMem.readTN (m : LocalMem) (key : BitVec 56) (a : Nat) : Nat → Nat
  | 0 => 0
  | n + 1 => (m.readT key a).toNat + 256 * LocalMem.readTN m key (a + 1) n

/-- The low `n` bytes of `v` stored in T from `a`. -/
def Memory.writeTN (m : Memory) (key : BitVec 56) (a : Nat) : Nat → Nat → Memory
  | 0, _ => m
  | n + 1, v => Memory.writeTN (m.write (tPlace key a) (BitVec.ofNat 8 v)) key (a + 1) n (v / 256)

/-- The uncorrectable units that `n` bytes stored from `a` do not cover whole: a unit overwritten in full is correct again (R106). -/
def unitsLeft (place : Nat → Nat) (a n : Nat) (bad : List Nat) : List Nat :=
  let first := (a + 15) / 16
  let count := (a + n) / 16 - first
  let whole := (List.range count).map fun i => place (16 * (first + i)) / 16
  bad.filter fun u => !whole.contains u

/-- The first of `n` bytes from `a` that lies in an uncorrectable unit, as the unit's address (R106, R194). -/
def badUnit (place : Nat → Nat) (a n : Nat) (bad : List Nat) : Option Nat :=
  if bad.isEmpty then none
  else ((List.range n).find? fun i => bad.contains (place (a + i) / 16)).map fun i => (a + i) / 16 * 16

/-- How an address of a space is stored: T by bank, the others as they are. -/
def placeOf (sp : Space) (key : BitVec 56) : Nat → Nat :=
  match sp with
  | .t => tPlace key
  | .a | .c | .w | .d | .x => id

/-- The local memory of a space: T of the tile, A, C and W of a core (R100). -/
def State.localMem (s : State) (t c : Nat) : Space → LocalMem
  | .t => (s.tile t).t
  | .a => (s.core t c).a
  | .c => (s.core t c).c
  | .w => (s.core t c).w
  | .d => LocalMem.zero
  | .x => { bytes := (s.tile t).x, bad := (s.tile t).xbad }

/-- The state with a local memory replaced. -/
def State.setLocal (s : State) (t c : Nat) (sp : Space) (m : LocalMem) : State :=
  match sp with
  | .t => s.modTile t fun y => { y with t := m }
  | .a => s.modCore t c fun k => { k with a := m }
  | .c => s.modCore t c fun k => { k with c := m }
  | .w => s.modCore t c fun k => { k with w := m }
  | .x => s.modTile t fun y => { y with x := m.bytes, xbad := m.bad }
  | .d => s

/-- `n` bytes of a local space from `a`. -/
def State.readLocal (s : State) (t c : Nat) (sp : Space) (key : BitVec 56) (a n : Nat) : Nat :=
  match sp with
  | .t => (s.tile t).t.readTN key a n
  | .a | .c | .w | .x => (s.localMem t c sp).bytes.readNat a n
  | .d => 0

/-- The low `n` bytes of `v` stored in a local space from `a`. -/
def State.writeLocal (s : State) (t c : Nat) (sp : Space) (key : BitVec 56) (a n v : Nat) : State :=
  let m := s.localMem t c sp
  let bytes := match sp with
    | .t => m.bytes.writeTN key a n v
    | .a | .c | .w | .d | .x => m.bytes.writeNat a n v
  s.setLocal t c sp { bytes := bytes, bad := unitsLeft (placeOf sp key) a n m.bad }

/-- The 16-byte units that some written ranges (address, bytes) cover whole between them, by their addresses' units. -/
def coveredUnits (rs : List (Nat × Nat)) : List Nat :=
  ((rs.flatMap fun r => (List.range ((r.1 + r.2 + 15) / 16 - r.1 / 16)).map (r.1 / 16 + ·)).eraseDups).filter fun u =>
    (List.range 16).all fun j => rs.any fun r => decide (r.1 ≤ 16 * u + j) && decide (16 * u + j < r.1 + r.2)

/-- The units that the events of one access have overwritten whole between them are correct again (R106, R115). -/
def State.heal (s : State) (t c : Nat) (sp : Space) (key : BitVec 56) (rs : List (Nat × Nat)) : State :=
  let m := s.localMem t c sp
  if m.bad.isEmpty then s
  else
    let whole := (coveredUnits rs).map fun u => placeOf sp key (16 * u) / 16
    s.setLocal t c sp { m with bad := m.bad.filter fun u => !whole.contains u }

/-- The uncorrectable unit that a read of `n` bytes meets first. -/
def State.badLocal (s : State) (t c : Nat) (sp : Space) (key : BitVec 56) (a n : Nat) : Option Nat :=
  badUnit (placeOf sp key) a n (s.localMem t c sp).bad

/-- `n` bytes from `a` as a list, lowest first. -/
def State.bytesLocal (s : State) (t c : Nat) (sp : Space) (key : BitVec 56) (a n : Nat) : List Byte :=
  (List.range n).map fun i => BitVec.ofNat 8 (s.readLocal t c sp key (a + i) 1)

/-- The number that bytes hold, the first the least significant (R7). -/
def natOfBytes : List Byte → Nat
  | [] => 0
  | b :: bs => b.toNat + 256 * natOfBytes bs

/-- `n` bytes of a number, the least significant first (R7). -/
def bytesOfNat : Nat → Nat → List Byte
  | 0, _ => []
  | n + 1, v => BitVec.ofNat 8 v :: bytesOfNat n (v / 256)

/-! ## Faults of a memory access -/

/-- `%einfo` in layout M (R193). -/
def infoM (addr spaceCode size : Nat) (write : Bool) : Word :=
  word (addr % 2 ^ 57 + 2 ^ 57 * spaceCode + 2 ^ 60 * size + 2 ^ 62 * write.toNat)

/-- `%einfo` in layout E (R193). -/
def infoE (engine chan reason ident : Nat) : Word :=
  word (engine + 256 * chan + 2 ^ 16 * (reason % 65536) + 2 ^ 32 * (ident % 2 ^ 32))

/-- `%einfo` in layout T (R193). -/
def infoT (t reason count : Nat) : Word := word (tileName t + 2 ^ 16 * reason + 2 ^ 32 * count)

/-- Size code of a power-of-two number of bytes (R54). -/
def sizeCode (n : Nat) : Nat := if n ≤ 1 then 0 else if n ≤ 2 then 1 else if n ≤ 4 then 2 else 3

/-- The fault of a range's first byte (R101), and WINDOW_CROSS where the rest leaves the space (R103). -/
def rangeFault (sp : Space) (a n : Nat) : Option Cause :=
  match sp with
  | .w =>
    if 0x40000 ≤ a then some .spaceRange
    else if 0x30000 ≤ a then some .addrUnmapped
    else if 0x30000 < a + n then some .windowCross
    else none
  | .t | .a | .c | .d | .x =>
    if sp.size ≤ a then some .spaceRange
    else if sp.size < a + n then some .windowCross
    else none

/-- Two ranges share a byte. -/
def overlaps (a n b m : Nat) : Bool := decide (0 < n) && decide (0 < m) && decide (a < b + m) && decide (b < a + n)

/-- The quoin entry that an access of a core or vector instruction hits (R25), lowest first. -/
def Tile.quoinHit (y : Tile) (core : Nat) (sp : Space) (a n : Nat) (write : Bool) : Option Nat :=
  (y.eng.quoins.find? fun e =>
    (e.2.space == sp) && (sp == .t || e.2.core == core) && (e.2.dst || write) && overlaps a n e.2.base e.2.len).map Prod.fst

/-- `%einfo` of QUOIN_HIT (R194). -/
def quoinInfo (a : Nat) (sp : Space) (core entry : Nat) (write : Bool) : Word :=
  word (a % 2 ^ 20 + 2 ^ 20 * sp.code + 2 ^ 23 * (if sp == .t then 0 else core) + 2 ^ 25 * entry + 2 ^ 62 * write.toNat)

/-- The QUOIN_HIT of an access, if it makes one. -/
def State.quoinFault (s : State) (t c : Nat) (sp : Space) (a n : Nat) (write : Bool) : Option (Cause × Word) :=
  ((s.tile t).quoinHit c sp a n write).map fun e => (.quoinHit, quoinInfo a sp c e write)

/-! ## Notices (R181, R185) -/

/-- The `%npend` bit of a notice cause (R181). -/
def noticeBit : Cause → Nat
  | .dupCollapse => 16
  | .matrixOperand => 17
  | .ingestOverrun => 18
  | c => c.code - 0x30

/-- The cause of a `%npend` bit. -/
def causeOfCode (n : Nat) : Option Cause := ([
    .illegalEncoding, .prefixChain, .reservedNonzero, .privilege, .trapInsn, .break, .divideZero, .codeAlign,
    .streamUnbound, .streamDirection, .streamStop, .gangBreak, .priorityRange, .handlerBudget, .loopNest, .eventOverflow,
    .addrUnmapped, .windowCross, .align, .bufferEngine, .quireDistance, .quoinHit, .xlateMiss, .xlatePerm,
    .xlateStale, .windowFormat, .atomicSpace, .localEcc, .dramPoison, .keySlot, .dupCollapse, .spaceRange] ++ [
    .copyDescriptor, .copyFault, .matrixCommand, .matrixOperand, .walkRecord, .walkSteal, .portUnbound, .portProtocol,
    .mailTarget, .formeStrayToken, .formeImage, .stickyMisuse, .dramProtocol, .vectorShape, .spaOverflow, .ingestOverrun,
    .watchdog, .tileLost, .proofRollback, .shrink, .migrate, .throttleNotice, .clockHoldover, .linkDegraded,
    .securityViolation, .debugHalt, .kickPending, .timer, .machineCheck, .spareSwap, .powerSteward, .firmwareState] : List Cause)[n]?

/-- The cause of a `%npend` bit. -/
def causeOfBit (b : Nat) : Option Cause :=
  if b = 16 then some .dupCollapse else if b = 17 then some .matrixOperand else if b = 18 then some .ingestOverrun
  else if b < 16 then causeOfCode (0x30 + b) else none

/-- A notice reaches a core: it sets its bit and records its `%einfo`, or coalesces with the one already pending (R185). -/
def Core.notify (k : Core) (cause : Cause) (info : Word) : Core :=
  let b := noticeBit cause
  if k.npend.getLsbD b then { k with npend := k.npend ||| (1 <<< 63) }
  else { k with npend := k.npend ||| (1 <<< b), ninfo := k.ninfo.put b info }

/-- A notice is raised on a core of a tile (R185). -/
def State.notify (s : State) (t c : Nat) (cause : Cause) (info : Word) : State := s.modCore t c (·.notify cause info)

/-- A pending notice has its context, which waits for its results to take it (R186). -/
def Core.noticeBound (k : Core) (b : Nat) : Bool := k.ctxs.any fun p => p.2.status == .waiting (.notice b)

/-- The pending notice of a core that is taken next: MACHINE_CHECK first, then ascending code (R185). -/
def Core.nextNotice (k : Core) : Option Nat :=
  ([12, 16, 17, 18] ++ (List.range 16)).find? fun b => k.npend.getLsbD b && !k.noticeBound b

/-! ## Gangs (R171 to R174) -/

/-- The formed gang that a context belongs to. -/
def Tile.gangOf (y : Tile) (c x : Nat) : Option Gang := y.eng.gangs.find? fun g => g.members.contains (c, x)

/-- Whether a context leads its gang. -/
def Gang.leads (g : Gang) (c x : Nat) : Bool := g.members.head? == some (c, x)

/-- `%tstate.gang` of a context (R180). -/
def Tile.gangCode (y : Tile) (c x : Nat) : Nat :=
  match y.gangOf c x with
  | none => 0
  | some g => if g.leads c x then 1 else 2

/-- The tile without a gang. -/
def Tile.dropGang (y : Tile) (g : Gang) : Tile := { y with eng := { y.eng with gangs := y.eng.gangs.filter (· != g) } }

/-! ## Waits that are left (R166, R185, R192) -/

/-- A core's arrival is withdrawn from a barrier; a barrier whose only arrival it was becomes idle (R166). -/
def Barrier.withdraw (b : Barrier) (c : Nat) : Barrier :=
  let arrived := b.arrived &&& ~~~(1#4 <<< c)
  if arrived = 0 then { open_ := false, latched := 0, arrived := 0 } else { b with arrived := arrived }

/-- What an instruction has taken before its wait is given back: its event entry is free again. -/
def State.dropKept (s : State) (u : Cur) : State :=
  match (s.ctx u).kept with
  | none => s
  | some k =>
    let s := s.modCtx u fun x => { x with kept := none }
    if k.2 then s.modCore u.tile u.core fun x => { x with evq := { x.evq with held := x.evq.held - 1 } } else s

/-- What leaving a wait undoes: an arrival at BAR, a place among the claims of the walker, the reads of a load of several
parts, a shootdown under way, the stop that QUNMAP puts on its slot, and the
stop of a context that CTXSAVE was to save (R166, R192, R245, R400). -/
def State.leaveWait (s : State) (u : Cur) : State :=
  let s := s.dropKept u
  match (s.ctx u).status with
  | .waiting (.bar n mask observer) =>
    let y := s.tile u.tile
    let b := y.eng.barriers.get { open_ := false, latched := 0, arrived := 0 } n
    if !observer && (s.ctx u).granted == false && mask == 0 && b.open_ && b.arrived.getLsbD u.core then
      s.modEng u.tile fun e => { e with barriers := e.barriers.put n (b.withdraw u.core) }
    else s
  | .waiting (.galley r) =>
    { s with galleys := { s.galleys with slots := s.galleys.slots.map fun e => if e.1 = r then (e.1, { e.2 with unmapping := false }) else e } }
  | .waiting (.ctxSave c x) =>
    s.modCtx ⟨u.tile, c, x⟩ fun k => if k.status = .waiting .saving then { k with status := .ready } else k
  | .waiting .remote =>
    s.modEng u.tile fun e => { e with xnode := { e.xnode with remote := e.xnode.remote.filter fun r => r.holder != 128 + 16 * u.core + u.ctx } }
  | .waiting .shootdown =>
    let mine (m : Msg) : Bool := match m with
      | .shoot t c x _ _ _ | .shot t c x _ _ _ => t == u.tile && c == u.core && x == u.ctx
      | _ => false
    let s : State := { s with net := s.net.filter fun m => !mine m }
    s.modEng u.tile fun e => { e with xnode := { e.xnode with
      shooting := e.xnode.shooting.filter fun h => !(h.1 == u.core && h.2.1 == u.ctx) } }
  | .waiting .claim =>
    s.modCore u.tile u.core fun k => { k with walker := { k.walker with claims := k.walker.claims.filter (·.1 != u.ctx) } }
  | _ => s

/-- The byte address in X that a fetch reads from `pc`. -/
def xAddr (pc : Word) : Nat := pc.toNat

/-- The words of X from a byte address, at most `n`, no further than the end of X (R45). -/
def fetchWords (x : Memory) : Nat → Nat → List Parcel
  | 0, _ => []
  | n + 1, a => if a + 2 ≤ 0x20000 then BitVec.ofNat 16 (x.readNat a 2) :: fetchWords x n (a + 2) else []

/-- Length in words of the instruction at an address of X; 0 where none decodes (R180). -/
def lenAt (x : Memory) (a : Nat) : Nat :=
  match decode (fetchWords x 5 a) with
  | .ok (_, n) => n
  | .error _ => 0

/-- The switch marker of the instruction at an address of X. -/
def markAt (x : Memory) (a : Nat) : Bool :=
  match decode (fetchWords x 5 a) with
  | .ok (i, _) => i.mark
  | .error _ => false

/-- Words from an address of X up to and with the first that is no prefix, four prefixes at most (R45, R47). -/
def chainLen (x : Memory) (a : Nat) : Nat := min 5 (((fetchWords x 5 a).takeWhile Parcel.isPrefix).length + 1)

/-! ## Trap and notice entry (R186 to R188) -/

/-- What an entry records beside the cause and its information. -/
structure Entry where
  cause : Cause
  info : Word
  epc : Word
  len : Nat
  skip : Bool
  nr : Bool
  notice : Bool
  alloc : Bool

/-- The context as R186 leaves it: the registers of the entry written, the status and the mode changed, the pc at `%tvec`. `%epc` holds 17
bits: of a pc at or beyond 2^17, where a transfer's fetch faults, it keeps the low 17 (DEDUCED: assumption 18). -/
def Ctx.enter (k : Ctx) (e : Entry) (tvec : BitVec 17) : Ctx :=
  { k with
    trap := { k.trap with
      cause := BitVec.ofNat 6 e.cause.code
      epc := BitVec.ofNat 17 e.epc.toNat
      einfo := e.info
      ts := { priv := true, ppriv := k.trap.ts.priv, te := false, intrap := true, pclass := k.sys.cls, skip := e.skip
              nr := e.nr, len := BitVec.ofNat 3 e.len, notice := e.notice, alloc := e.alloc, pd := false } }
    words := 0
    pc := tvec.setWidth 64
    pcFrom := none
    pend := none
    kept := none
    granted := false
    stalled := false
    behind := false
    ahead := false
    status := match k.status with | .running => .running | .free | .ready | .parked | .waiting _ => .ready }

/-- A synchronous trap taken while te is 0 (R188): the context waits unchanged, and a MACHINE_CHECK goes to the next core. -/
def State.doubleTrap (s : State) (u : Cur) (cause : Cause) : State :=
  let s := s.modCtx u fun k => { k with status := .waiting .doubleTrap, pend := none }
  let s := s.modCore u.tile u.core fun k =>
    { k with issue := { k.issue with current := if k.issue.current = some u.ctx then none else k.issue.current } }
  s.notify u.tile ((u.core + 1) % 4) .machineCheck (word (cause.code + 64 * u.core + 256 * u.ctx))

/-- A condition of R429 is attributed to the chase that binds a tile (R430); on a tile of no chase it strikes none. -/
def State.strikeTile (s : State) (t : Nat) : State :=
  match (s.tile t).place.chase with
  | some n => { s with chases := s.chases.put n { s.chases.get Chase.reset n with struck := true } }
  | none => s

/-- A tile is lost or silent: the chase that binds it is struck, and the tile counts as dead at the rollback (R429 to R431). -/
def State.strikeDead (s : State) (t : Nat) : State :=
  match (s.tile t).place.chase with
  | some n =>
    let c := s.chases.get Chase.reset n
    { s with chases := s.chases.put n { c with struck := true, dead := if c.dead.contains t then c.dead else c.dead ++ [t] } }
  | none => s

/-- The data errors that roll a chase back (R106, R429). -/
def Cause.strikes (c : Cause) : Bool := c == .localEcc || c == .dramPoison

/-- An operation of a tile's engines meets a fault: a data error strikes the tile's chase (R106, R429). -/
def State.strikeFor (s : State) (t : Nat) (c : Cause) : State := if c.strikes then s.strikeTile t else s

/-- A handler of a tile meets a data error (R429). -/
def State.strikeEntry (s : State) (u : Cur) (e : Entry) : State :=
  if e.nr && (s.ctx u).handler != .none then s.strikeTile u.tile else s

/-- Entry of one context, its gang apart (R186). -/
def State.enterAlone (s : State) (u : Cur) (e : Entry) : State :=
  if !e.notice && !(s.ctx u).trap.ts.te then s.doubleTrap u e.cause
  else ((s.strikeEntry u e).drawTicket).modCtx u fun k => { k.enter e (s.core u.tile u.core).tvec with since := s.ticket }

/-- `%einfo` of GANG_BREAK (R194). -/
def gangInfo (core cause case : Nat) : Word := word (core + 4 * cause + 256 * case)

/-- A gang dissolves and every member but the context `u` is to trap GANG_BREAK before its next instruction (R174); one whose own trap
already waits for its results keeps that cause. -/
def State.breakGang (s : State) (u : Cur) (cause case : Nat) : State :=
  match (s.tile u.tile).gangOf u.core u.ctx with
  | none => s
  | some g =>
    let s := s.modTile u.tile (·.dropGang g)
    (g.members.filter (· != (u.core, u.ctx))).foldl (fun s m =>
      let v : Cur := ⟨u.tile, m.1, m.2⟩
      let s := s.leaveWait v
      let k := s.ctx v
      let n := lenAt (s.tile u.tile).x (xAddr k.pc)
      s.modCtx v fun k => { k with
        pend := some (k.pend.getD ⟨.gangBreak, gangInfo u.core cause case, k.pc, n, false, false⟩)
        granted := false
        behind := false
        ahead := false
        status := .waiting .results }) s

/-- Trap or notice entry (R186) of a context with no results in flight: its wait, if any, is abandoned and its gang breaks. -/
def State.enter (s : State) (u : Cur) (e : Entry) : State :=
  if !e.notice && !(s.ctx u).trap.ts.te then s.doubleTrap u e.cause
  else ((s.leaveWait u).breakGang u e.cause.code 0).enterAlone u e

/-- A pending trap becomes an entry once the context's results have returned (R138, R186). -/
def State.enterPending (s : State) (u : Cur) : State :=
  let k := s.ctx u
  match k.pend with
  | some p => if k.flights.isEmpty then s.enter u ⟨p.cause, p.info, p.epc, p.len, p.skip, p.nr, false, false⟩ else s
  | none => s

/-- A synchronous trap of the instruction at the context's pc (R138, R186, R187): it is entered at once where no result is in
flight, and else when the last has returned. -/
def State.raise (s : State) (u : Cur) (cause : Cause) (info : Word) (len : Nat) : State :=
  let skip := cause == .trapInsn || cause == .break
  let nr := cause == .localEcc || cause == .dramPoison
  let s := s.leaveWait u
  let k := s.ctx u
  let p : PendTrap := ⟨cause, info, k.pc, len, skip, nr⟩
  if k.flights.isEmpty then s.enter u ⟨cause, info, k.pc, len, skip, nr, false, false⟩
  else
    let s := s.modCtx u fun k => { k with pend := some p, granted := false, status := .waiting .results }
    s.modCore u.tile u.core fun k =>
      { k with issue := { k.issue with current := if k.issue.current = some u.ctx then none else k.issue.current } }

/-! ## Counted loops (R154) -/

/-- The loop stack and the pc after the instruction at `pc` falls through to `next`. -/
def closeLoops (pc next : Word) : List LoopEntry → List LoopEntry × Word
  | [] => ([], next)
  | e :: es =>
    if e.stop = pc then
      if 1 < e.remaining then ({ e with remaining := e.remaining - 1 } :: es, e.start) else closeLoops pc next es
    else if pc.toNat < e.stop.toNat ∧ e.stop.toNat < next.toNat then closeLoops pc next es
    else (e :: es, next)

/-- The loop stack after a taken transfer: entries whose range does not contain the target are popped. -/
def keepLoops (target : Word) (es : List LoopEntry) : List LoopEntry :=
  es.filter fun e => decide (e.start.toNat ≤ target.toNat) && decide (target.toNat ≤ e.stop.toNat)

/-! ## How an instruction ends -/

/-- What an instruction comes to, beside the state it leaves. -/
inductive Act where
  /-- it completes, and execution falls through -/
  | done
  /-- it completes with a taken transfer (R154) -/
  | jump (target : Word)
  /-- it traps, with no effect (R9) -/
  | trap (cause : Cause) (info : Word)
  /-- its context waits (R134) -/
  | wait (w : Wait)
  /-- it stalls: the context keeps the core, and the cycles that pass are counted in `%ilock` (R24, R135) -/
  | stall
  /-- it completes, and the context goes to the back of its class's rotation (R151) -/
  | yield
  /-- it completes, and the context parks until its results have returned, as at a marker -/
  | park
  /-- it has ended or redirected its context itself -/
  | over
deriving DecidableEq, Repr

/-- A context gives up the issue slot: its switch group ends and it stands at the back of its rotation (R31). -/
def State.endGroup (s : State) (u : Cur) : State :=
  let tk := s.ticket
  let s := s.drawTicket
  let s := s.modCtx u fun k => { k with words := 0, since := tk }
  s.modCore u.tile u.core fun k =>
    { k with issue := { k.issue with current := if k.issue.current = some u.ctx then none else k.issue.current } }

/-- After a marked instruction: the context parks for its results, or goes to ready with none (R41, R134). -/
def State.atMarker (s : State) (u : Cur) (mark : Bool) : State :=
  if mark then (s.endGroup u).modCtx u fun k => { k with status := if k.flights.isEmpty then .ready else .parked }
  else s

/-- The context completes its instruction and falls through (R154). -/
def Ctx.advance (k : Ctx) (len : Nat) : Ctx :=
  let next := k.pc + word (2 * len)
  let r := closeLoops k.pc next k.loops
  { k with pc := r.2, loops := r.1, pcFrom := none, granted := false, stalled := false, kept := none }

/-- The context completes its instruction with a taken transfer. -/
def Ctx.transfer (k : Ctx) (target : Word) : Ctx :=
  { k with pc := target, pcFrom := some k.pc, loops := keepLoops target k.loops, granted := false, stalled := false, kept := none }

/-- The words of an instruction that has completed count toward the forced switch (R41). -/
def Ctx.count (k : Ctx) (len : Nat) : Ctx := { k with words := k.words + len }

/-- The context waits on a condition (R134): its issue slot is released at once. -/
def State.holdOn (s : State) (u : Cur) (w : Wait) : State :=
  let again := match (s.ctx u).status with | .waiting v => v == w | .free | .ready | .running | .parked => false
  let tk := s.ticket
  let s := if again then s else s.drawTicket
  let s := s.modCtx u fun k => { k with status := .waiting w, since := if again then k.since else tk, stalled := false }
  s.modCore u.tile u.core fun k =>
    { k with issue := { k.issue with current := if k.issue.current = some u.ctx then none else k.issue.current } }

/-- A follower takes the leader's path (R172). -/
def State.follow (s : State) (u v : Cur) : State :=
  let l := s.ctx u
  s.modCtx v fun k => { k with pc := l.pc, pcFrom := l.pcFrom, loops := l.loops, behind := false, ahead := false }

/-- A follower that has not completed the leader's instruction is behind, unless its gang is no more. -/
def State.lag (s : State) (v : Cur) : State :=
  if ((s.tile v.tile).gangOf v.core v.ctx).isSome then s.modCtx v fun k => { k with behind := true } else s

/-- A follower has completed the instruction that holds its leader. -/
def State.lead (s : State) (v : Cur) : State := s.modCtx v fun k => { k with ahead := true }

/-- A member of a gang has completed, by an event, an instruction that it waited in (R172): a follower that was behind catches up with the
leader, another is ahead of it; with the leader, the followers that were ahead go on, and the others have it still to do. -/
def State.gangPassed (s : State) (u : Cur) : State :=
  match (s.tile u.tile).gangOf u.core u.ctx with
  | none => s
  | some g =>
    if g.leads u.core u.ctx then
      g.members.tail.foldl (fun s m =>
        let v : Cur := ⟨u.tile, m.1, m.2⟩
        if (s.ctx v).ahead then s.follow u v else s.lag v) s
    else match g.members.head? with
      | some l => if (s.ctx u).behind then s.follow ⟨u.tile, l.1, l.2⟩ u else s.lead u
      | none => s

/-- A waiting context's instruction completes (R134): it falls through, and parks at a marker with results in flight. -/
def State.completeWait (s : State) (u : Cur) : State :=
  let x := (s.tile u.tile).x
  let a := xAddr (s.ctx u).pc
  let len := lenAt x a
  let tk := s.ticket
  (s.drawTicket.modCtx u fun k =>
    { k.advance len with
      words := if markAt x a then 0 else k.words + len
      since := tk
      status := if markAt x a && !k.flights.isEmpty then .parked else .ready }).gangPassed u

/-- How an act ends the instruction of context `u`: `s0` the state before it, `s1` the state its effect leaves. -/
def finish (u : Cur) (len : Nat) (mark : Bool) (s0 s1 : State) : Act → State
  | .done => (s1.modCtx u fun k => (k.advance len).count len).atMarker u mark
  | .jump target => (s1.modCtx u fun k => (k.transfer target).count len).atMarker u mark
  | .trap cause info => s0.raise u cause info len
  | .wait w => s1.holdOn u w
  | .stall => s0.modCtx u fun k => { k with stalled := true }
  | .yield =>
    if mark then (s1.modCtx u (·.advance len)).atMarker u mark
    else ((s1.modCtx u (·.advance len)).endGroup u).modCtx u fun k => { k with status := .ready }
  | .park => (s1.modCtx u (·.advance len)).atMarker u true
  | .over => s1

/-! ## Return from a trap (R189) -/

/-- The context as ERET leaves it when it does not free it. -/
def Ctx.eret (k : Ctx) : Ctx :=
  let ts := k.trap.ts
  let epc : Word := k.trap.epc.setWidth 64
  let target := if ts.skip then epc + word (2 * ts.len.toNat) else epc
  { k with
    sys := { k.sys with cls := ts.pclass }
    trap := { k.trap with ts := { ts with priv := ts.ppriv, te := true, intrap := false, skip := false, pd := false } }
    pc := target
    pcFrom := some k.pc
    granted := false
    words := 0 }

/-- ERET frees the context rather than return (R189). -/
def Ctx.eretFrees (k : Ctx) : Bool := k.trap.ts.nr || (k.trap.ts.notice && k.trap.ts.alloc)

/-! ## Results in flight (R136, R137) -/

/-- A long-latency result of the instruction under way joins the results in flight. -/
def State.launch (s : State) (dest : Dest) (value : Payload) (len : Nat) : State :=
  s.modMe fun k => { k with flights := k.flights ++ [⟨dest, value, k.pc, len⟩] }

/-- Whether a register's result is in flight; g0 never is (R137). -/
def Ctx.inFlight (k : Ctx) (d : Dest) : Bool := d != .g 0 && k.flights.any (·.dest == d)

/-! ## Event records (R21 to R23) -/

/-- A record becomes readable in its reserved entry. -/
def EventQueue.deliver (q : EventQueue) (r : Record) : EventQueue := { q with ready := q.ready ++ [r], held := q.held - 1 }

/-- Whether a core's queue has a free entry (R21). -/
def EventQueue.hasRoom (q : EventQueue) : Bool := decide (q.ready.length + q.held < 32)

/-- Reserve an entry of a core's queue. -/
def State.reserveEvent (s : State) (t c : Nat) : State := s.modCore t c fun k => { k with evq := { k.evq with held := k.evq.held + 1 } }

/-- A completion writes its record (R22). -/
def State.deliver (s : State) (t c : Nat) (r : Record) : State := s.modCore t c fun k => { k with evq := k.evq.deliver r }

/-- An operation of a core's queue with an earlier identifier than a record's, in its engine channel, is still under way (R23): an open
walk with an event, or a reply that is owed, for which channels 0x10 and 0x11 are one (R342). -/
def State.earlierDue (s : State) (t c : Nat) (r : Record) : Bool :=
  let mine (i : BitVec 32) : Bool := below i r.ident
  if r.engine = 2 then (s.core t c).walker.open_.any fun w => w.ev && mine w.walk
  else if r.engine = 6 then
    (s.net.any fun m => match m with
      | .mail _ _ _ src i _ reply => reply && src.tile == t && src.core == c && mine i
      | _ => false) ||
    s.tiles.any fun y => y.2.port.replies.any fun k => !k.sent && k.tile == t && k.sender == c && mine k.ident
  else false

/-- The queue with a late record readable: the first, by identifier, of its engine. -/
def EventQueue.promote (q : EventQueue) (r : Record) : EventQueue := { q with late := q.late.erase r }.deliver r

/-- The late records that nothing holds back any longer become readable, in ascending identifier order within an engine channel (R23):
`n` at most. -/
def State.settleRecords : Nat → Nat → Nat → State → State
  | 0, _, _, s => s
  | n + 1, t, c, s =>
    let late := (s.core t c).evq.late
    match late.find? fun r => !s.earlierDue t c r && late.all fun k => k.engine != r.engine || !below k.ident r.ident with
    | none => s
    | some r => State.settleRecords n t c (s.modCore t c fun k => { k with evq := k.evq.promote r })

/-- The records of a core's queue that may become readable do. -/
def State.settleLate (s : State) (t c : Nat) : State := State.settleRecords (s.core t c).evq.late.length t c s

/-- A completion writes its record, which becomes readable after those of earlier identifiers of its channel (R22, R23). -/
def State.deliverInOrder (s : State) (t c : Nat) (r : Record) : State :=
  (s.modCore t c fun k => { k with evq := { k.evq with late := k.evq.late ++ [r] } }).settleLate t c

/-- A record of an operation (R22). -/
def mkRecord (engine chan : Nat) (status : BitVec 16) (ident : BitVec 32) (detail : Word) : Record :=
  { engine := BitVec.ofNat 8 engine, chan := BitVec.ofNat 8 chan, status := status, ident := ident, detail := detail }

/-- The detail of a completion in a fault (R210). -/
def faultDetail (va : Nat) (cause : Cause) : Word := word (va % 2 ^ 57 + 2 ^ 57 * cause.code)

/-- The record as the 128 bits that WAITEV delivers (R22). -/
def Record.bits (r : Record) : Word × Word :=
  (word (r.engine.toNat + 256 * r.chan.toNat + 65536 * r.status.toNat + 2 ^ 32 * r.ident.toNat), r.detail)

/-! ## Quoins (R24 to R26) -/

/-- The numbers of free quoin entries, lowest first. -/
def Tile.freeQuoins (y : Tile) : List Nat := (List.range 32).filter fun i => (y.eng.quoins.find i).isNone

/-- Register ranges in the lowest free entries. -/
def State.addQuoins (s : State) (t : Nat) (qs : List Quoin) : State :=
  s.modEng t fun e => { e with
    quoins := ((List.zip ((s.tile t).freeQuoins) qs).foldl (fun m (p : Nat × Quoin) => m.put p.1 p.2) e.quoins) }

/-- Remove the entries of an operation (R26). -/
def State.dropQuoins (s : State) (t core engine chan : Nat) (ident : BitVec 32) : State :=
  s.modEng t fun e => { e with
    quoins := e.quoins.filter fun p => !(p.2.issuer == core && p.2.engine == engine && p.2.chan == chan && p.2.ident == ident) }

end Sys2Proof.Machine
end

