-- ==== Sys2Proof/Machine/Flags.lean ====
section
/-! DEFINITION. Numbers: every element format to the bit, rounding, conversions, and the flags of `%fflags` that each raises
(chapter 03 of spec/, R77 to R92). -/

namespace Sys2Proof.Machine

/-! ## Flags (R88) -/

/-- A set of conversion and floating-point flags, at the bits of `%fflags`. -/
abbrev Flagset := BitVec 7

/-- The bits of `%fflags` (R88). -/
def flNx : Flagset := 1
def flUf : Flagset := 2
def flOf : Flagset := 4
def flDz : Flagset := 8
def flNv : Flagset := 16
def flSat : Flagset := 32
def flNar : Flagset := 64

/-- Set flags in the context under way: arithmetic never clears one (R88). -/
def State.addFlags (s : State) (f : Flagset) : State :=
  s.modMe fun k => { k with sys := { k.sys with fflags := k.sys.fflags ||| f } }

/-! ## Formats (R77 to R79) -/

/-- Bits of an element (R77): tf6 by its code, s4 by its nibble. -/
def fmtBits : Nat → Nat
  | 0 => 32 | 1 => 16 | 2 => 16 | 3 => 8 | 4 => 6 | 5 => 8 | 6 => 16 | 7 => 32 | 8 => 64
  | 9 => 8 | 10 => 16 | 11 => 32 | 12 => 64 | 13 => 4 | 14 => 16 | 15 => 8 | _ => 8

/-- Bytes that an element takes in T, A and the vector registers: tf6 padded and s4 by the byte (R84, R265). -/
def fmtBytes (f : Nat) : Nat := (fmtBits f + 7) / 8

/-- IEEE formats: exponent width and fraction width (R78). -/
def ieeeShape : Nat → Option (Nat × Nat)
  | 0 => some (8, 23) | 1 => some (5, 10) | 2 => some (8, 7) | _ => none

/-- Integer formats: width and signedness (R77). -/
def intShape : Nat → Option (Nat × Bool)
  | 5 => some (8, true) | 6 => some (16, true) | 7 => some (32, true) | 8 => some (64, true)
  | 9 => some (8, false) | 10 => some (16, false) | 11 => some (32, false) | 12 => some (64, false)
  | 13 => some (4, true) | _ => none

/-- Tapered formats: bits of t and the position of the marker of the top band (R80, R83). -/
def taperShape : Nat → Option (Nat × Nat)
  | 3 => some (7, 6) | 4 => some (5, 4) | _ => none

/-- Signed formats extend with their sign (R218). -/
def fmtSigned (f : Nat) : Bool := match intShape f with | some (_, b) => b | none => false

/-- A value that an element of a real format holds. -/
inductive Num where
  | nan (signalling : Bool)
  | nar
  | inf (neg : Bool)
  /-- (−1)^neg × m × 2^e; a zero keeps its sign -/
  | fin (neg : Bool) (m : Nat) (e : Int)
deriving DecidableEq, Repr

/-- The magnitude of a tapered code in units of 2^−24 (R80, R83). -/
def taperMag (top t : Nat) : Nat :=
  if t = 0 then 0
  else
    let p := t.log2
    let w := min 2 p
    let q := p - w
    let g := t / 2 ^ q % 2 ^ w
    let f := t % 2 ^ q
    (2 ^ q + f) * 2 ^ (24 - 4 * (top - p) + g - q)

/-- The value of an element's bits under a window scale (R78, R80, R83). Complex formats hold no real value. -/
def decodeNum (fmt : Nat) (scale : Int) (v : Nat) : Num :=
  match ieeeShape fmt, intShape fmt, taperShape fmt with
  | some (ew, fw), _, _ =>
    let neg := v / 2 ^ (ew + fw) % 2 == 1
    let ex := v / 2 ^ fw % 2 ^ ew
    let fr := v % 2 ^ fw
    let bias : Int := 2 ^ (ew - 1) - 1
    if ex = 2 ^ ew - 1 then
      if fr = 0 then .inf neg else .nan (fr / 2 ^ (fw - 1) == 0)
    else if ex = 0 then .fin neg fr (1 - bias - fw)
    else .fin neg (2 ^ fw + fr) ((ex : Int) - bias - fw)
  | none, some (w, signed), _ =>
    let v := v % 2 ^ w
    if signed && decide (2 ^ (w - 1) ≤ v) then .fin true (2 ^ w - v) 0 else .fin false v 0
  | none, none, some (tb, top) =>
    let t := v % 2 ^ tb
    let neg := v / 2 ^ tb % 2 == 1
    if t = 0 then (if neg then .nar else .fin false 0 0)
    else .fin neg (taperMag top t) (scale - 24)
  | none, none, none => .fin false 0 0

/-- The canonical NaN (R78). -/
def canonNan (fmt : Nat) : Nat :=
  match ieeeShape fmt with | some (ew, fw) => (2 ^ ew - 1) * 2 ^ fw + 2 ^ (fw - 1) | none => 0

/-- An infinity of an IEEE format. -/
def infBits (fmt : Nat) (neg : Bool) : Nat :=
  match ieeeShape fmt with | some (ew, fw) => neg.toNat * 2 ^ (ew + fw) + (2 ^ ew - 1) * 2 ^ fw | none => 0

/-- A zero of an IEEE format. -/
def zeroBits (fmt : Nat) (neg : Bool) : Nat :=
  match ieeeShape fmt with | some (ew, fw) => neg.toNat * 2 ^ (ew + fw) | none => 0

/-! ## Rounding (R86, R87) -/

/-- Whether a magnitude with a remainder `rem` of `2^drop` below it moves away from zero: `odd` is the kept part's low bit. -/
def roundsUp (mode : Nat) (neg odd : Bool) (rem drop : Nat) : Bool :=
  if rem = 0 then false
  else match mode with
    | 2 => false
    | 3 => !neg
    | 4 => neg
    | _ => let twice := 2 * rem
           decide (2 ^ drop < twice) || (decide (twice = 2 ^ drop) && odd)

/-- `m` × 2^e on the grid of 2^q: the count of grid steps, and whether it is inexact. -/
def onGrid (mode : Nat) (neg : Bool) (m : Nat) (e q : Int) : Nat × Bool :=
  if q ≤ e then (m * 2 ^ (e - q).toNat, false)
  else
    let d := (q - e).toNat
    let k := m / 2 ^ d
    let rem := m % 2 ^ d
    (if roundsUp mode neg (k % 2 == 1) rem d then k + 1 else k, rem != 0)

/-- A finite value rounded to an IEEE format; `sat` takes the largest finite value on overflow (R87, R92). -/
def roundIeee (fmt mode : Nat) (sat neg : Bool) (m : Nat) (e : Int) : Nat × Flagset :=
  match ieeeShape fmt with
  | none => (0, 0)
  | some (ew, fw) =>
    let sign := neg.toNat * 2 ^ (ew + fw)
    if m = 0 then (sign, 0)
    else
      let bias : Int := 2 ^ (ew - 1) - 1
      let emin : Int := 1 - bias
      let top : Int := e + m.log2
      let q : Int := max (top - fw) (emin - fw)
      let r := onGrid mode neg m e q
      let k := r.1
      -- tininess is detected after rounding to the format's precision with no bound on the exponent
      let u := onGrid mode neg m e (top - fw)
      let tiny := decide (top < emin) && !(decide (top = emin - 1) && decide (2 ^ (fw + 1) ≤ u.1))
      let fl : Flagset := (if r.2 then flNx else 0) ||| (if r.2 && tiny then flUf else 0)
      if k < 2 ^ fw then (sign + k, fl)
      else
        let carry := decide (2 ^ (fw + 1) ≤ k)
        let k' := if carry then k / 2 else k
        let q' := if carry then q + 1 else q
        let ex : Int := q' + fw + bias
        if (2 ^ ew : Int) - 1 ≤ ex then
          let away := match mode with | 2 => false | 3 => !neg | 4 => neg | _ => true
          (if sat || !away then sign + (2 ^ ew - 2) * 2 ^ fw + (2 ^ fw - 1) else sign + (2 ^ ew - 1) * 2 ^ fw, flOf ||| flNx)
        else (sign + ex.toNat * 2 ^ fw + (k' - 2 ^ fw), fl)

/-- A finite value rounded to an integer, and whether that is inexact. -/
def roundInt (mode : Nat) (neg : Bool) (m : Nat) (e : Int) : Int × Bool :=
  let r := onGrid mode neg m e 0
  (if neg then -(r.1 : Int) else r.1, r.2)

/-- The largest code t below `n` whose magnitude does not exceed m × 2^e, in units of 2^−24. -/
def taperBelow (top : Nat) (m : Nat) (e : Int) (n : Nat) : Nat :=
  (List.range n).foldl (fun b t =>
    let le := if 0 ≤ e then decide (taperMag top t ≤ m * 2 ^ e.toNat) else decide (taperMag top t * 2 ^ (-e).toNat ≤ m)
    if le then t else b) 0

/-- EncodeTf8 and EncodeTf6 of a finite value (R82, R83). -/
def encodeTaper (fmt mode : Nat) (scale : Int) (neg : Bool) (m : Nat) (e : Int) : Nat × Flagset :=
  match taperShape fmt with
  | none => (0, 0)
  | some (tb, top) =>
    let y := e - scale + 24
    let last := 2 ^ tb - 1
    -- everything in units of 2^g, at most 2^−24
    let g : Int := min y 0
    let big := m * 2 ^ (y - g).toNat
    let mag (t : Nat) : Nat := taperMag top t * 2 ^ (-g).toNat
    let pack (t : Nat) : Nat := if t = 0 then 0 else neg.toNat * 2 ^ tb + t
    if m = 0 then (0, 0)
    else if mag last < big then (pack last, flOf ||| flNx)
    else
      let lo := taperBelow top m y (2 ^ tb)
      if mag lo = big then (pack lo, 0)
      else
        let hi := lo + 1
        let t := match mode with
          | 2 => lo
          | 3 => if neg then lo else hi
          | 4 => if neg then hi else lo
          | _ =>
            let dl := big - mag lo
            let dh := mag hi - big
            if dl < dh then lo else if dh < dl then hi else if lo % 2 = 0 then lo else hi
        (pack t, flNx ||| (if big < mag 1 then flUf else 0))

/-! ## Conversions (R91, R92) -/

/-- Saturation control (R92). -/
inductive Satur where
  | vcvt | on | off
deriving DecidableEq, Repr

/-- Bounds of an integer format. -/
def intLo (w : Nat) (signed : Bool) : Int := if signed then -(2 ^ (w - 1)) else 0
def intHi (w : Nat) (signed : Bool) : Int := if signed then 2 ^ (w - 1) - 1 else 2 ^ w - 1

/-- An integer clamped to bounds, with `sat` where it was outside. -/
def clampInt (lo hi v : Int) : Int × Flagset :=
  if v < lo then (lo, flSat) else if hi < v then (hi, flSat) else (v, 0)

/-- The low `w` bits of an integer. -/
def lowBits (w : Nat) (v : Int) : Nat := (v % (2 ^ w : Int)).toNat

/-- Encode a value into a real format (R82, R83, R87, R91, R92). -/
def encodeNum (fmt mode : Nat) (scale : Int) (sat : Satur) (x : Num) : Nat × Flagset :=
  match ieeeShape fmt, intShape fmt, taperShape fmt with
  | some _, _, _ =>
    match x with
    | .nan sg => (canonNan fmt, if sg then flNv else 0)
    | .nar => (canonNan fmt, flNar)
    | .inf neg => (infBits fmt neg, 0)
    | .fin neg m e => roundIeee fmt mode (sat == .on) neg m e
  | none, some (w, signed), _ =>
    let lo := intLo w signed
    let hi := intHi w signed
    match x with
    | .nan _ => (0, flNv)
    | .nar => (0, flNv ||| flNar)
    | .inf neg => (lowBits w (if neg then lo else hi), flNv)
    | .fin neg m e =>
      let r := roundInt mode neg m e
      let nx : Flagset := if r.2 then flNx else 0
      match sat with
      | .off => (lowBits w r.1, nx)
      | .on | .vcvt => let c := clampInt lo hi r.1; (lowBits w c.1, nx ||| c.2)
  | none, none, some (tb, _) =>
    match x with
    | .nan _ => (2 ^ tb, flNv)
    | .nar => (2 ^ tb, flNar)
    | .inf _ => (2 ^ tb, flNv)
    | .fin neg m e => encodeTaper fmt mode scale neg m e
  | none, none, none => (0, 0)

/-- Width of a part of a complex format (R79). -/
def partBits (fmt : Nat) : Nat := if fmt = 14 then 8 else 4

/-- A part of a complex element, as an integer (R79). -/
def partOf (fmt : Nat) (hi : Bool) (v : Nat) : Int :=
  let w := partBits fmt
  let p := (if hi then v / 2 ^ w else v) % 2 ^ w
  if 2 ^ (w - 1) ≤ p then (p : Int) - 2 ^ w else p

/-- A complex conversion: each part saturated (R91). -/
def convertComplex (src dst v : Nat) : Nat × Flagset :=
  let w := partBits dst
  let re := clampInt (intLo w true) (intHi w true) (partOf src false v)
  let im := clampInt (intLo w true) (intHi w true) (partOf src true v)
  (lowBits w re.1 + 2 ^ w * lowBits w im.1, re.2 ||| im.2)

/-- The conversion of one element's bits (R91, R92): bits of the same format and scale are copied, a NaR source sets `nar`. -/
def convert (src dst mode : Nat) (sscale dscale : Int) (sat : Satur) (v : Nat) : Nat × Flagset :=
  let v := v % 2 ^ fmtBits src
  if src = dst ∧ (taperShape src = none ∨ sscale = dscale) then
    (v, match taperShape src with | some (tb, _) => if v = 2 ^ tb then flNar else 0 | none => 0)
  else if 14 ≤ src then convertComplex src dst v
  else encodeNum dst mode dscale sat (decodeNum src sscale v)

/-- The rounding mode of an instruction: its own field, or `%fmode.rnd` where that is 0 (R86). -/
def roundMode (o : Nat) (rnd : BitVec 3) : Nat := if o = 0 then rnd.toNat else o

/-! ## Arithmetic of IEEE values (R87, R271 to R273) -/

/-- `nv` for signalling NaN operands (R78). -/
def snanFlag (xs : List Num) : Flagset := if xs.any (· == .nan true) then flNv else 0

/-- A NaN or NaR. -/
def Num.isNan : Num → Bool
  | .nan _ | .nar => true
  | .inf _ | .fin _ _ _ => false

/-- The sign of a value. -/
def Num.neg : Num → Bool
  | .inf n | .fin n _ _ => n
  | .nan _ | .nar => false

/-- The value with its sign changed. -/
def Num.negate : Num → Num
  | .inf n => .inf (!n)
  | .fin n m e => .fin (!n) m e
  | .nan b => .nan b
  | .nar => .nar

/-- A zero. -/
def Num.isZero : Num → Bool
  | .fin _ m _ => m == 0
  | .nan _ | .nar | .inf _ => false

/-- The exact sum of two finite values with the zero sign of R87. -/
def sumFin (mode : Nat) (n1 : Bool) (m1 : Nat) (e1 : Int) (n2 : Bool) (m2 : Nat) (e2 : Int) : Bool × Nat × Int :=
  let e := min e1 e2
  let a : Int := (if n1 then -1 else 1) * (m1 * 2 ^ (e1 - e).toNat : Nat)
  let b : Int := (if n2 then -1 else 1) * (m2 * 2 ^ (e2 - e).toNat : Nat)
  let v := a + b
  if v = 0 then
    if m1 = 0 ∧ m2 = 0 ∧ n1 = n2 then (n1, 0, 0) else (mode == 4, 0, 0)
  else (decide (v < 0), v.natAbs, e)

/-- The sum of two values, rounded once. -/
def fAddNum (fmt mode : Nat) (x y : Num) : Nat × Flagset :=
  let fl := snanFlag [x, y]
  match x, y with
  | .nan _, _ | _, .nan _ | .nar, _ | _, .nar => (canonNan fmt, fl)
  | .inf a, .inf b => if a = b then (infBits fmt a, 0) else (canonNan fmt, flNv)
  | .inf a, .fin _ _ _ => (infBits fmt a, 0)
  | .fin _ _ _, .inf b => (infBits fmt b, 0)
  | .fin n1 m1 e1, .fin n2 m2 e2 =>
    let r := sumFin mode n1 m1 e1 n2 m2 e2
    roundIeee fmt mode false r.1 r.2.1 r.2.2

/-- The product of two values, rounded once. -/
def fMulNum (fmt mode : Nat) (x y : Num) : Nat × Flagset :=
  let fl := snanFlag [x, y]
  match x, y with
  | .nan _, _ | _, .nan _ | .nar, _ | _, .nar => (canonNan fmt, fl)
  | .inf a, .inf b => (infBits fmt (a != b), 0)
  | .inf a, .fin n m _ => if m = 0 then (canonNan fmt, flNv) else (infBits fmt (a != n), 0)
  | .fin n m _, .inf b => if m = 0 then (canonNan fmt, flNv) else (infBits fmt (n != b), 0)
  | .fin n1 m1 e1, .fin n2 m2 e2 => roundIeee fmt mode false (n1 != n2) (m1 * m2) (e1 + e2)

/-- A quotient with enough bits and a sticky low bit. -/
def quotBits (m1 m2 : Nat) (e1 e2 : Int) : Nat × Int :=
  let k := 64 + m2.log2
  let q := m1 * 2 ^ k / m2
  let r := m1 * 2 ^ k % m2
  (2 * q + (if r = 0 then 0 else 1), e1 - e2 - k - 1)

/-- The quotient of two values, rounded once (R87). -/
def fDivNum (fmt mode : Nat) (x y : Num) : Nat × Flagset :=
  let fl := snanFlag [x, y]
  match x, y with
  | .nan _, _ | _, .nan _ | .nar, _ | _, .nar => (canonNan fmt, fl)
  | .inf _, .inf _ => (canonNan fmt, flNv)
  | .inf a, .fin n _ _ => (infBits fmt (a != n), 0)
  | .fin n _ _, .inf b => (zeroBits fmt (n != b), 0)
  | .fin n1 m1 e1, .fin n2 m2 e2 =>
    if m2 = 0 then
      if m1 = 0 then (canonNan fmt, flNv) else (infBits fmt (n1 != n2), flDz)
    else
      let q := quotBits m1 m2 e1 e2
      if m1 = 0 then (zeroBits fmt (n1 != n2), 0) else roundIeee fmt mode false (n1 != n2) q.1 q.2

/-- ±(x × y) ± z with one rounding (R272). -/
def fFmaNum (fmt mode : Nat) (negProd negAcc : Bool) (x y z : Num) : Nat × Flagset :=
  let fl := snanFlag [x, y, z]
  let badProduct := match x, y with
    | .inf _, .fin _ 0 _ => true
    | .fin _ 0 _, .inf _ => true
    | _, _ => false
  if badProduct then (canonNan fmt, fl ||| flNv)
  else if x.isNan || y.isNan || z.isNan then (canonNan fmt, fl)
  else
    let ps := (x.neg != y.neg) != negProd
    let zs := z.neg != negAcc
    match x, y, z with
    | .fin _ m1 e1, .fin _ m2 e2, .fin _ m3 e3 =>
      let r := sumFin mode ps (m1 * m2) (e1 + e2) zs m3 e3
      roundIeee fmt mode false r.1 r.2.1 r.2.2
    | .fin _ _ _, .fin _ _ _, _ => (infBits fmt zs, 0)
    | _, _, .inf _ => if ps = zs then (infBits fmt ps, 0) else (canonNan fmt, flNv)
    | _, _, _ => (infBits fmt ps, 0)

/-- The order of two values that are no NaN: `.lt`, `.eq` or `.gt`; −0 equals +0. -/
def cmpNum (x y : Num) : Ordering :=
  match x, y with
  | .inf a, .inf b => if a = b then .eq else if a then .lt else .gt
  | .inf a, _ => if a then .lt else .gt
  | _, .inf b => if b then .gt else .lt
  | .fin n1 m1 e1, .fin n2 m2 e2 =>
    let r := sumFin 1 n1 m1 e1 (!n2) m2 e2
    if r.2.1 = 0 then .eq else if r.1 then .lt else .gt
  | _, _ => .eq

/-- The smaller (or larger) of two floating-point elements: −0 orders below +0, one NaN yields the other operand (R271). -/
def fMinMax (fmt : Nat) (mx : Bool) (a b : Nat) : Nat × Flagset :=
  let x := decodeNum fmt 0 a
  let y := decodeNum fmt 0 b
  let fl := snanFlag [x, y]
  if x.isNan && y.isNan then (canonNan fmt, fl)
  else if x.isNan then (b, fl)
  else if y.isNan then (a, fl)
  else
    let o := if x.isZero && y.isZero then (if x.neg == y.neg then .eq else if x.neg then .lt else .gt) else cmpNum x y
    let pickA := match o with | .eq => true | .lt => !mx | .gt => mx
    (if pickA then a else b, fl)

/-- The integer square root: the largest r with r × r at most n, bit by bit from 2^(k − 1) down. -/
def isqrt (n : Nat) : Nat → Nat → Nat
  | 0, r => r
  | k + 1, r => let c := r + 2 ^ k; isqrt n k (if c * c ≤ n then c else r)

/-- A square root with enough bits and a sticky low bit, of m × 2^e. -/
def sqrtBits (m : Nat) (e : Int) : Nat × Int :=
  let m1 := if e % 2 = 0 then m else 2 * m
  let e1 := if e % 2 = 0 then e else e - 1
  let n := m1 * 2 ^ 128
  let r := isqrt n (n.log2 / 2 + 1) 0
  (2 * r + (if r * r = n then 0 else 1), e1 / 2 - 65)

/-- The square root of a value (R273). -/
def fSqrtNum (fmt mode : Nat) (x : Num) : Nat × Flagset :=
  match x with
  | .nan sg => (canonNan fmt, if sg then flNv else 0)
  | .nar => (canonNan fmt, 0)
  | .inf neg => if neg then (canonNan fmt, flNv) else (infBits fmt false, 0)
  | .fin neg m e =>
    if m = 0 then (zeroBits fmt neg, 0)
    else if neg then (canonNan fmt, flNv)
    else let r := sqrtBits m e; roundIeee fmt mode false false r.1 r.2

/-- The reciprocal of a value (R273). -/
def fRcpNum (fmt mode : Nat) (x : Num) : Nat × Flagset := fDivNum fmt mode (.fin false 1 0) x

/-- The reciprocal square root of a value (R273): 1/√x with a sticky bit, from the integer square root of 2^k / x. -/
def fRsqrtNum (fmt mode : Nat) (x : Num) : Nat × Flagset :=
  match x with
  | .nan sg => (canonNan fmt, if sg then flNv else 0)
  | .nar => (canonNan fmt, 0)
  | .inf neg => if neg then (canonNan fmt, flNv) else (zeroBits fmt false, 0)
  | .fin neg m e =>
    if m = 0 then (infBits fmt neg, flDz)
    else if neg then (canonNan fmt, flNv)
    else
      let m1 := if e % 2 = 0 then m else 2 * m
      let e1 := if e % 2 = 0 then e else e - 1
      -- 2^(2k) / m1, whose root is 2^k / √m1
      let k := 96 + m1.log2
      let n := 2 ^ (2 * k) / m1
      let r := isqrt n (n.log2 / 2 + 1) 0
      let exact := decide (r * r * m1 = 2 ^ (2 * k))
      roundIeee fmt mode false false (2 * r + (if exact then 0 else 1)) (-(e1 / 2) - k - 1)

end Sys2Proof.Machine
end

