-- ==== Sys2Proof/Machine/Patterns.lean ====
section
/-! DEFINITION. The visiting order of copies and streams, their addresses and stop tokens (R206, R217 to R219). -/

namespace Sys2Proof.Machine

/-- The runs of a dimension: 0 in dimensions 1 to 3 means 1 (R197). -/
def dimLen (k n : Nat) : Nat := if k = 0 then n else if n = 0 then 1 else n

/-- The four lengths of a pattern. -/
def Pattern.len (p : Pattern) (k : Nat) : Nat := dimLen k (p.lens.getD k 0)

/-- The elements of a pattern that is not segmented. -/
def Pattern.total (p : Pattern) : Nat := p.len 0 * p.len 1 * p.len 2 * p.len 3

/-- The index of element `n` in each dimension, dimension 0 varying fastest (R206). -/
def indexOf (lens : List Nat) (n : Nat) : List Nat :=
  match lens with
  | [] => []
  | l :: ls => (if l = 0 then 0 else n % l) :: indexOf ls (if l = 0 then 0 else n / l)

/-- The dot product of indices and steps. -/
def dotSteps : List Nat → List Int → Int
  | i :: is, s :: ss => (i : Int) * s + dotSteps is ss
  | _, _ => 0

/-- The lengths of a pattern's dimensions. -/
def Pattern.dims (p : Pattern) : List Nat := [p.len 0, p.len 1, p.len 2, p.len 3]

/-- The address of element `n` (R206, R217). -/
def Pattern.addr (p : Pattern) (n : Nat) : Int :=
  if p.seg then (p.base : Int) + n * p.steps.getD 0 0
  else (p.base : Int) + dotSteps (indexOf p.dims n) p.steps

/-- How many of the lowest dimensions all end at element `n`: 4 at the last element (R219). -/
def endsAt (dims : List Nat) (n : Nat) : Nat :=
  match dims with
  | [] => 0
  | l :: ls => if l ≤ 1 ∨ n % l = l - 1 then 1 + endsAt ls (if l = 0 then 0 else n / l) else 0

/-- The highest level of a stop mask that is at most `l` (R219). -/
def stopLevel (mask : BitVec 4) (l : Nat) : Option Nat := ((List.range (l + 1)).reverse).find? fun i => mask.getLsbD i

/-- The stop token that follows element `n` of a pattern that is not segmented, if one does. -/
def Pattern.stopAfter (p : Pattern) (n : Nat) : List StreamItem :=
  if n + 1 = p.total then [.terminal]
  else match endsAt p.dims n with
    | 0 => []
    | k + 1 => match stopLevel p.stopMask k with
      | some l => [.stop l]
      | none => []

/-- Bytes of an element of a pattern: a token for a vector stream (R218). -/
def Pattern.size (p : Pattern) (vector : Bool) : Nat := if vector then 128 else fmtBytes p.fmt

/-- The lowest and the highest offset that steps and lengths reach, without the element's own bytes. -/
def spanOf : List Nat → List Int → Int × Int
  | l :: ls, s :: ss =>
    let r := spanOf ls ss
    let d := ((l : Int) - 1) * s
    (r.1 + min 0 d, r.2 + max 0 d)
  | _, _ => (0, 0)

/-- The bounding range of a pattern as (lowest byte, bytes); none where it has no element. Segmented: element 0 alone (R220). -/
def Pattern.bounds (p : Pattern) (vector : Bool) : Option (Int × Nat) :=
  if p.seg then some (p.base, p.size vector)
  else if p.total = 0 then none
  else
    let r := spanOf p.dims p.steps
    some ((p.base : Int) + r.1, (r.2 - r.1).toNat + p.size vector)

/-- A stream unit's index for a register: g8 to g15 are units 0 to 7, v24 to v31 units 8 to 15 (R216). -/
def unitOf (vector : Bool) (n : Nat) : Nat := if vector then n - 16 else n - 8

/-- Whether a register can be a stream register. -/
def streamable (vector : Bool) (n : Nat) : Bool :=
  if vector then decide (24 ≤ n) && decide (n ≤ 31) else decide (8 ≤ n) && decide (n ≤ 15)

/-- A stream unit with no binding. -/
def StreamUnit.reset : StreamUnit := { bind := none, nbind := 0, cancelled := [] }

/-- A stream unit of a core. -/
def Core.stream (k : Core) (u : Nat) : StreamUnit := k.streams.get StreamUnit.reset u

/-- The core with a stream unit replaced. -/
def Core.setStream (k : Core) (u : Nat) (v : StreamUnit) : Core := { k with streams := k.streams.put u v }

/-- The binding that a context holds of a register (R216). -/
def Core.binding (k : Core) (x : Nat) (vector : Bool) (n : Nat) : Option Binding :=
  if streamable vector n then
    match (k.stream (unitOf vector n)).bind with
    | some b => if b.owner = x then some b else none
    | none => none
  else none

/-- The register was bound by the context and the binding has been cancelled (R225). -/
def Core.cancelled (k : Core) (x : Nat) (vector : Bool) (n : Nat) : Bool :=
  streamable vector n && (k.stream (unitOf vector n)).cancelled.contains x

/-- The runs of a segmented pattern (R217). -/
def Pattern.runs (p : Pattern) : Nat := p.len 1

/-- The first run at or after `run` that holds an element, with its length, among `left` runs; or the unit that a length lies in
and that cannot be read. -/
def nextRun (lenOf : Nat → Except Nat Nat) : Nat → Nat → Except Nat (Option (Nat × Nat))
  | 0, _ => .ok none
  | left + 1, run =>
    match lenOf run with
    | .error unit => .error unit
    | .ok 0 => nextRun lenOf left (run + 1)
    | .ok (n + 1) => .ok (some (run, n + 1))

/-- A write binding brought to the first run at or after `run` that holds an element. A length that cannot be read ends the pattern
with LOCAL_ECC (R106). -/
def Binding.seek (b : Binding) (lenOf : Nat → Except Nat Nat) (run : Nat) : Binding :=
  match nextRun lenOf (b.pat.runs - run) run with
  | .ok (some (r, n)) => { b with run := r, inRun := 0, runLen := some n }
  | .ok none => { b with ended := true }
  | .error unit => { b with ended := true, ending := some ⟨BitVec.ofNat 16 (0x8000 + Cause.localEcc.code), faultDetail unit .localEcc⟩ }

/-- Bytes that appended elements take before their round is full (R224). -/
def roundBytes : Nat := 65536

/-- Whether a write stream's pattern has no element left (R219). `runs` of a segmented one are counted as they are reached. -/
def Binding.exhausted (b : Binding) : Bool :=
  if b.pat.seg || b.ended then b.ended else decide (b.pat.total ≤ b.count)

/-- Whether a write stream can take no further element until a round commits. -/
def Binding.full (b : Binding) (vector : Bool) : Bool := decide (roundBytes ≤ b.open_.length * b.pat.size vector)

end Sys2Proof.Machine
end

