-- ==== Sys2Proof/Machine/Operands.lean ====
section
/-! DEFINITION. Operands: the registers that an instruction names, stream registers among them (R133), and how an instruction is
carried out for a context and for the gang it leads (R172). -/

namespace Sys2Proof.Machine

/-- The registers that an instruction reads and writes. -/
structure Use where
  gr : List Nat
  gw : List Nat
  vr : List Nat
  vw : List Nat
  kr : List Nat
  kw : List Nat

/-- No register. -/
def Use.none : Use := ⟨[], [], [], [], [], []⟩

/-- The general registers read, and the one written. -/
def Use.g (reads writes : List Nat) : Use := ⟨reads, writes, [], [], [], []⟩

/-! ## Stream registers -/

/-- `%einfo` of the stream causes (R194). -/
def streamInfo (vector : Bool) (n : Nat) (extra : Nat) : Word := word (n + 64 * vector.toNat + extra)

/-- The trap of naming a register as a source, or with `dest` as the destination, whose stream is unbound or runs the other way (R133,
R225). -/
def Core.gateWay (k : Core) (x : Nat) (vector dest : Bool) (n : Nat) : Option Act :=
  match k.binding x vector n with
  | none => if k.cancelled x vector n then some (.trap .streamUnbound (streamInfo vector n 0)) else none
  | some b => if b.write = dest then none else some (.trap .streamDirection (streamInfo vector n (128 * dest.toNat)))

/-- What naming a register as a source comes to while it is bound to a read stream (R133): a trap, a wait, or nothing. -/
def Core.gateRead (k : Core) (x : Nat) (vector : Bool) (n : Nat) : Option Act :=
  match k.binding x vector n with
  | none => none
  | some b =>
    if b.write then none
    else match b.buf with
      | [] => some (.wait (.streamRead (unitOf vector n)))
      | .elem _ :: _ => none
      | .stop l :: _ => some (.trap .streamStop (streamInfo vector n (256 * l)))
      | .terminal :: _ => some (.trap .streamStop (streamInfo vector n (256 * 3)))
      | .bad c i :: _ => some (.trap c i)

/-- What naming a register as the destination comes to while it is bound to a write stream (R133, R219). -/
def Core.gateWrite (k : Core) (x : Nat) (vector : Bool) (n : Nat) : Option Act :=
  match k.binding x vector n with
  | none => none
  | some b =>
    if !b.write then none
    else if b.exhausted then some (.trap .streamStop (streamInfo vector n (256 * 3 + 1024)))
    else
      let a := b.pat.addr b.count
      let size := b.pat.size vector
      let fault := if b.pat.seg then (if a < 0 then some Cause.spaceRange
        else match rangeFault b.pat.space a.toNat size with
          | some c => some c
          | none => if a.toNat % size = 0 then none else some .align) else none
      match fault with
      | some c => some (.trap c (infoM (lowBits 57 a) b.pat.space.code (sizeCode size) true))
      | none => if b.full vector then some (.wait (.streamWrite (unitOf vector n))) else none

/-- The first thing that keeps the registers of an instruction from being used: streams unbound or of the other direction, so that a
register which is source and destination traps whatever its stream holds, then the rest; in each, sources before destinations (R133). -/
def State.gate (s : State) (u : Cur) (use : Use) : Option Act :=
  let k := s.core u.tile u.core
  (((use.gr.map (k.gateWay u.ctx false false)) ++ (use.vr.map (k.gateWay u.ctx true false)) ++
    (use.gw.map (k.gateWay u.ctx false true)) ++ (use.vw.map (k.gateWay u.ctx true true)) ++
    (use.gr.map (k.gateRead u.ctx false)) ++ (use.vr.map (k.gateRead u.ctx true)) ++
    (use.gw.map (k.gateWrite u.ctx false)) ++ (use.vw.map (k.gateWrite u.ctx true))).filterMap id).head?

/-- The value of a general register as a source: the head element of a stream register (R133). -/
def State.rg (s : State) (n : Nat) : Word :=
  match s.myCore.binding s.cur.ctx false n with
  | some b => match b.buf with | .elem v :: _ => word v | _ => 0
  | none => s.me.g n

/-- The value of a vector register as a source. -/
def State.rv (s : State) (n : Nat) : VWord :=
  match s.myCore.binding s.cur.ctx true n with
  | some b => match b.buf with | .elem v :: _ => BitVec.ofNat 1024 v | _ => 0
  | none => s.me.v n

/-- The value of a mask register. -/
def State.rk (s : State) (n : Nat) : KWord := s.me.k n

/-- The binding with an element appended. `lenOf` reads a segment length (R217). -/
def Binding.append (b : Binding) (lenOf : Nat → Except Nat Nat) (v : Append) : Binding :=
  let b := { b with open_ := b.open_ ++ [v], count := b.count + 1 }
  if b.pat.seg then
    if b.inRun + 1 < b.runLen.getD 0 then { b with inRun := b.inRun + 1 } else b.seek lenOf (b.run + 1)
  else b

/-- The length of a run of a segmented binding (R217), or the uncorrectable unit that it lies in. -/
def State.segLen (s : State) (t : Nat) (b : Binding) (j : Nat) : Except Nat Nat :=
  match s.badLocal t 0 .t b.bkey (b.pat.segbase + 4 * j) 4 with
  | some unit => .error unit
  | none => .ok (s.readLocal t 0 .t b.bkey (b.pat.segbase + 4 * j) 4)

/-- The binding of a unit changed. -/
def Core.modBinding (k : Core) (u : Nat) (f : Binding → Binding) : Core :=
  let y := k.stream u
  k.setStream u { y with bind := y.bind.map f }

/-- A binding that has met its first data error in its segment lengths strikes the tile's chase (R106, R225). -/
def State.strikeNew (s : State) (t : Nat) (b b' : Binding) : State :=
  if b.ending.isNone && b'.ending.isSome then s.strikeTile t else s

/-- A result of a context appended to the write stream of a register, with the bits that are written where not all are. -/
def State.appendFor (s : State) (u : Cur) (vector : Bool) (n v : Nat) (keep : Option Nat) : State :=
  match (s.core u.tile u.core).binding u.ctx vector n with
  | some b =>
    if b.write then
      let b' := b.append (s.segLen u.tile b) ⟨v, keep⟩
      (s.modCore u.tile u.core fun k => k.modBinding (unitOf vector n) fun _ => b').strikeNew u.tile b b'
    else s
  | none => s

/-- A result of the context under way appended. -/
def State.appendTo (s : State) (vector : Bool) (n v : Nat) (keep : Option Nat := none) : State := s.appendFor s.cur vector n v keep

/-- A register of a context is bound to a write stream of its own. -/
def State.appends (s : State) (u : Cur) (vector : Bool) (n : Nat) : Bool :=
  match (s.core u.tile u.core).binding u.ctx vector n with | some b => b.write | none => false

/-- A result that returns is written to its register, or appended to the stream that the register is bound to (R133, R137). -/
def State.land (s : State) (u : Cur) (f : Flight) : State :=
  match f.dest, f.value with
  | .g n, .word w => if s.appends u false n then s.appendFor u false n w.toNat none else s.modCtx u (·.setG n w)
  | .v n, .vec w => if s.appends u true n then s.appendFor u true n w.toNat none else s.modCtx u (·.setV n w)
  | .k n, .mask w => s.modCtx u (·.setK n w)
  | _, _ => s

/-- The state with a general register written, or its stream appended to (R130, R133). -/
def State.wg (s : State) (n : Nat) (v : Word) : State :=
  match s.myCore.binding s.cur.ctx false n with
  | some _ => s.appendTo false n v.toNat
  | none => s.modMe (·.setG n v)

/-- The state with a vector register written, or its stream appended to. -/
def State.wv (s : State) (n : Nat) (v : VWord) : State :=
  match s.myCore.binding s.cur.ctx true n with
  | some _ => s.appendTo true n v.toNat
  | none => s.modMe (·.setV n v)

/-- The state with a mask register written. -/
def State.wk (s : State) (n : Nat) (v : KWord) : State := s.modMe (·.setK n v)

/-- A long-latency word result (R136): in flight until it returns; appended at once to a bound write stream. -/
def State.lg (s : State) (n : Nat) (v : Payload) (len : Nat) : State :=
  match s.myCore.binding s.cur.ctx false n, v with
  | some _, .word w => s.appendTo false n w.toNat
  | _, _ => s.launch (.g n) v len

/-- A long-latency word result of a context that waits in its instruction, as `lg`. -/
def State.lgFor (s : State) (u : Cur) (n : Nat) (w : Word) (len : Nat) : State :=
  if s.appends u false n then s.appendFor u false n w.toNat none
  else s.modCtx u fun k => { k with flights := k.flights ++ [⟨.g n, .word w, k.pc, len⟩] }

/-- A long-latency vector result. -/
def State.lv (s : State) (n : Nat) (v : Payload) (len : Nat) : State :=
  match s.myCore.binding s.cur.ctx true n, v with
  | some _, .vec w => s.appendTo true n w.toNat
  | _, _ => s.launch (.v n) v len

/-- A read stream's head element is taken. -/
def Binding.take (b : Binding) : Binding :=
  match b.buf with
  | [] => b
  | _ :: q => { b with buf := q, count := b.count + 1 }

/-- Take one element of each stream register among the sources, once for each register (R133). -/
def State.consume (s : State) (u : Cur) (use : Use) : State :=
  let take (vector : Bool) (s : State) (n : Nat) : State :=
    match (s.core u.tile u.core).binding u.ctx vector n with
    | some b => if b.write then s else s.modCore u.tile u.core fun k => k.modBinding (unitOf vector n) Binding.take
    | none => s
  (use.vr.eraseDups).foldl (take true) ((use.gr.eraseDups).foldl (take false) s)

/-! ## Structures of T that an instruction names -/

/-- The fault of the address of a descriptor of `n` bytes in T, aligned to them. -/
def descFault (a n : Nat) : Option (Cause × Word) :=
  if 0x100000 ≤ a then some (.spaceRange, infoM a 0 3 false) else if a % n ≠ 0 then some (.align, infoM a 0 3 false) else none

/-- The QUOIN_HIT of a read of `n` bytes of T by the instruction under way (R25). -/
def State.descHit (s : State) (a n : Nat) : Option (Cause × Word) := s.quoinFault s.cur.tile s.cur.core .t a n false

/-- The fault of a range of T that an instruction names (R101 to R105). -/
def State.areaFault (s : State) (a n align : Nat) (write : Bool) : Option (Cause × Word) :=
  match rangeFault .t a n with
  | some c => some (c, infoM a 0 3 write)
  | none => if a % align ≠ 0 then some (.align, infoM a 0 3 write) else s.quoinFault s.cur.tile s.cur.core .t a n write

/-! ## Carrying out an instruction -/

/-- A register that the instruction names has its result in flight (R137). -/
def Ctx.blocked (k : Ctx) (use : Use) : Bool :=
  (use.gr ++ use.gw).any (fun n => k.inFlight (.g n)) || (use.vr ++ use.vw).any (fun n => k.inFlight (.v n)) ||
  (use.kr ++ use.kw).any (fun n => k.inFlight (.k n))

/-- One instruction of context `u`: it stalls for a register in flight (R137); else what its registers allow, its effect, and its
end. It tells whether it has completed. -/
def execOne (u : Cur) (len : Nat) (mark : Bool) (use : Use) (body : State → State × Act) (s : State) : State × Bool :=
  let s0 := s.setCur u
  match if (s0.ctx u).blocked use then some Act.stall else s0.gate u use with
  | some a => (finish u len mark s0 s0 a, false)
  | none =>
    let r := body s0
    match r.2 with
    | .done | .jump _ | .yield | .park => (finish u len mark s0 (r.1.consume u use) r.2, true)
    | .over | .trap _ _ | .wait _ | .stall => (finish u len mark s0 r.1 r.2, false)

/-- The instruction of the context under way, and of every follower in step with it if it leads a gang (R172): each follower
executes its part on its own registers and buffers and takes the leader's path. A follower that was behind catches up. With `all`
the followers take part even where the leader has to wait, as the members of a gang arrive at a barrier; one that then completes is
ahead, and does not execute the instruction again with the leader. -/
def runGang (all : Bool) (len : Nat) (mark : Bool) (use useF : Use) (body bodyF : State → State × Act) (s : State) : State :=
  let u := s.cur
  match (s.tile u.tile).gangOf u.core u.ctx with
  | none => (execOne u len mark use body s).1
  | some g =>
    if g.leads u.core u.ctx then
      let r := execOne u len mark use body s
      if !(r.2 || all) || !(r.1.tile u.tile).eng.gangs.contains g then r.1
      else
        (g.members.tail.foldl (fun s' m =>
          let v : Cur := ⟨u.tile, m.1, m.2⟩
          if (s'.tile u.tile).eng.gangs.contains g then
            if (s'.ctx v).ahead then if r.2 then s'.follow u v else s'
            else
              let q := execOne v len mark useF bodyF s'
              if q.2 then if r.2 then q.1.follow u v else q.1.lead v
              else if r.2 then q.1.lag v else q.1
          else s') r.1).setCur u
    else
      let r := execOne u len mark useF bodyF s
      match g.members.head? with
      | some l => if r.2 && (r.1.tile u.tile).eng.gangs.contains g then r.1.follow ⟨u.tile, l.1, l.2⟩ u else r.1
      | none => r.1

/-- The meaning of an encoded instruction: its registers and its effect on the context under way. -/
def meaning (o : Opnd) (use : Use) (body : State → State × Act) (s : State) : Host.Outcome State Fault Refusal :=
  .next (runGang false o.len o.mark use use body body s)

/-- The meaning of an instruction in which each member of a gang arrives or waits for its own core (R165, R261). -/
def memberwise (o : Opnd) (body : State → State × Act) (s : State) : Host.Outcome State Fault Refusal :=
  .next (runGang true o.len o.mark .none .none body body s)

/-- The meaning of a transfer: a follower's condition is not read, and it takes the leader's path (R172). `link` is what it does
besides for each member. -/
def transferMeaning (o : Opnd) (use useF : Use) (link : State → State) (body : State → State × Act) (s : State) :
    Host.Outcome State Fault Refusal :=
  .next (runGang false o.len o.mark use useF body (fun s => (link s, .done)) s)

/-- An instruction's effect under the registers it names, looked at after what comes before them, such as a check of privilege (R52). -/
def withUse (use : Use) (body : State → State × Act) (s : State) : State × Act :=
  if s.me.blocked use then (s, .stall)
  else match s.gate s.cur use with
    | some a => (s, a)
    | none =>
      let r := body s
      match r.2 with
      | .done | .jump _ | .yield | .park => (r.1.consume s.cur use, r.2)
      | .over | .trap _ _ | .wait _ | .stall => r

/-- The context under way is a follower of a gang: an instruction that acts once, for the leader, does nothing for it. -/
def State.isFollower (s : State) : Bool := s.myTile.gangCode s.cur.core s.cur.ctx == 2

/-- The context under way is at supervisor privilege (R178). -/
def State.supervisor (s : State) : Bool := s.me.trap.ts.priv

/-- An instruction that only some states may execute: PRIVILEGE comes before whatever its registers come to (R52, R178). -/
def privileged (i : Instr) (may : State → Bool) (use : Use) (body : State → State × Act) (s : State) : State × Act :=
  if may s then withUse use body s else (s, .trap .privilege i.info)

/-- A privileged instruction that acts once, for the leader of a gang (R68, R397, R418). -/
def kernelOp (i : Instr) (use : Use) (body : State → State × Act) (s : State) : State × Act :=
  if !s.supervisor then (s, .trap .privilege i.info) else if s.isFollower then (s, .done) else withUse use body s

/-! ## Operand forms -/

/-- Register numbers of the fields. -/
def dn (o : Opnd) : Nat := o.d.toNat
def an (o : Opnd) : Nat := o.a.toNat
def bn (o : Opnd) : Nat := o.b.toNat

/-- The numbers x and y of a two-operand form d op a, or of a three-operand form a op b (R141). -/
def formX (o : Opnd) : Nat := if o.r then an o else dn o
def formY (o : Opnd) : Nat := if o.r then bn o else an o

/-- The source register of a DI form: d, or PX.R[5:0] (R142). -/
def srcReg (o : Opnd) : Nat := if o.r then bn o else dn o

/-- The immediate as a word. -/
def immW (o : Opnd) : Word := wordI o.imm

/-- Bits [hi:lo] of PX.P's field. -/
def fxBits (o : Opnd) (hi lo : Nat) : Nat := o.fx.toNat / 2 ^ lo % 2 ^ (hi + 1 - lo)

/-- Registers of an arithmetic DA form. -/
def useForm (o : Opnd) : Use := .g [formX o, formY o] [dn o]

/-- Registers of a DI form. -/
def useDI (o : Opnd) : Use := .g [srcReg o] [dn o]

/-- Registers of a unary form. -/
def useUnary (o : Opnd) : Use := .g [an o] [dn o]

/-- The effect of an instruction that computes one register from the state, single-cycle (R136). -/
def compute (o : Opnd) (f : State → Word) (s : State) : State × Act := (s.wg (dn o) (f s), .done)

/-- The effect of one that computes a long-latency result (R136). -/
def computeLong (o : Opnd) (f : State → Word) (s : State) : State × Act := (s.lg (dn o) (.word (f s)) o.len, .done)

/-- The effective address a + b + imm (R145): b names g0 without PX.R. -/
def State.addrOf (s : State) (o : Opnd) : Word := s.rg (an o) + s.rg (bn o) + immW o

end Sys2Proof.Machine
end

