-- ==== Sys2Proof/Machine/DramOps.lean ====
section
/-! DEFINITION. D: the DRAM actors' storage under keys, page tables, the translation buffer and walks, and the accesses of cores
and engines to D (chapter 13 of spec/). -/

namespace Sys2Proof.Machine

/-! ## Storage (R346 to R349) -/

/-- The actor of a physical address (R346). -/
def actorOf (pa : Nat) : Nat := pa / 2 ^ 37

/-- A DRAM actor. -/
def State.actor (s : State) (a : Nat) : DramActor := s.actors.get DramActor.reset a

/-- The state with a DRAM actor changed. -/
def State.modActor (s : State) (a : Nat) (f : DramActor → DramActor) : State := { s with actors := s.actors.put a (f (s.actor a)) }

/-- The actors that KLOAD names: 127 for all 96 (R407). -/
def actorsOf (n : Nat) : List Nat := if n = 127 then List.range 96 else [n]

/-- A named actor has requests of a key slot that it has not performed (R407). -/
def State.keyBusy (s : State) (slot n : Nat) : Bool :=
  s.net.any fun m => match m with | .dramRequest a r => (actorsOf n).contains a && r.key.toNat == slot | _ => false

/-- The key pair that a slot of a physical address's actor holds, if one is loaded (R349). -/
def State.keyPair (s : State) (pa slot : Nat) : Option (BitVec 512) := (s.actor (actorOf pa)).keys.find slot

/-- The bytes of a token as they stand under the key that wrote it. -/
def Dram.plain (m : Dram) (tok : Nat) : Token := BitVec.ofNat 1024 (m.bytes.readNat (128 * tok) 128)

/-- A byte read under a key pair: meaningless where another pair wrote the token (R349). -/
def Dram.readByte (m : Dram) (key : BitVec 512) (pa : Nat) : Byte :=
  match m.keyOf.find (pa / 128) with
  | none => m.bytes.read pa
  | some k =>
    if k = key then m.bytes.read pa
    else BitVec.ofNat 8 ((Config.wrongKey k key (pa / 128) (m.plain (pa / 128))).toNat / 256 ^ (pa % 128))

/-- `n` bytes from `pa` under a key pair, the first the least significant. -/
def Dram.read (m : Dram) (key : BitVec 512) (pa : Nat) : Nat → Nat
  | 0 => 0
  | n + 1 => (m.readByte key pa).toNat + 256 * Dram.read m key (pa + 1) n

/-- A write within one token: under another pair than the last, the token is decrypted under the writer's first (R349). A write
of the whole token clears its poison (R348). -/
def Dram.writeTok (m : Dram) (key : BitVec 512) (pa n v : Nat) : Dram :=
  let tok := pa / 128
  let bytes := match m.keyOf.find tok with
    | none => m.bytes
    | some k =>
      if k = key ∨ n = 128 then m.bytes
      else m.bytes.writeNat (128 * tok) 128 (Config.wrongKey k key tok (m.plain tok)).toNat
  { bytes := bytes.writeNat pa n v, keyOf := m.keyOf.put tok key
    poison := if n = 128 then m.poison.filter (· != tok) else m.poison }

/-- A write over the tokens that it touches, `parts` of them at most. -/
def Dram.writeParts (m : Dram) (key : BitVec 512) : Nat → Nat → Nat → Nat → Dram
  | 0, _, _, _ => m
  | parts + 1, pa, n, v =>
    let k := min n (128 - pa % 128)
    if n = 0 then m else Dram.writeParts (m.writeTok key pa k (v % 256 ^ k)) key parts (pa + k) (n - k) (v / 256 ^ k)

/-- The low `n` bytes of `v` written from `pa`. -/
def Dram.write (m : Dram) (key : BitVec 512) (pa n v : Nat) : Dram := m.writeParts key (n / 128 + 2) pa n v

/-- A poisoned token among those that `n` bytes touch. -/
def Dram.poisoned (m : Dram) (pa n : Nat) : Bool := m.poison.any fun t => overlaps (128 * t) 128 pa n

/-! ## Page tables (R357 to R360) -/

/-- Bytes that a leaf of a level maps (R358). -/
def pageBytes (level : Nat) : Nat := if level = 0 then 2 ^ 19 else if level = 1 then 2 ^ 26 else 2 ^ 33

/-- The table index of a level (R358). -/
def tableIndex (level va : Nat) : Nat :=
  match level with
  | 0 => va / 2 ^ 19 % 128 | 1 => va / 2 ^ 26 % 128 | 2 => va / 2 ^ 33 % 4096 | _ => va / 2 ^ 45 % 4096

/-- Address field of an entry, as a physical address. -/
def entryAddr (e : Word) : Nat := bits e 10 34 * 1024

/-- Kind of page (R359). -/
def entryKind (e : Word) : Nat := bits e 4 2

/-- A field of duplicate actor names an actor, or none (R346, R359). -/
def dupNamed (a : Nat) : Bool := decide (a < 96) || a == 0x7F

/-- Whether an entry is valid at a level (R359). -/
def entryValid (e : Word) (level : Nat) : Bool :=
  let leaf := e.getLsbD 1
  let dup := e.getLsbD 3
  let kind := entryKind e
  e.getLsbD 0 && bits e 6 4 == 0 && !e.getLsbD 63 && kind != 3 &&
  !(leaf && level == 3) && !(!leaf && level == 0) &&
  (!leaf || entryAddr e % pageBytes level == 0) &&
  ((leaf && kind != 0) || decide (actorOf (entryAddr e) < 96)) &&
  (!dup || (leaf && kind == 0)) &&
  (if kind = 2 && leaf then true
   else if dup then bits e 58 5 == 0 && dupNamed (bits e 44 7) && dupNamed (bits e 51 7)
   else bits e 44 19 == 0)

/-- The physical address of a virtual address by an entry (R360). -/
def Xentry.pa (e : Xentry) (va : Nat) : Nat := entryAddr e.entry + va % pageBytes e.level

/-- An entry maps the page of an address. -/
def Xentry.maps (e : Xentry) (va : Nat) : Bool := va / pageBytes e.level == e.page

/-- Reads of a walk travel under the system slot (R349). -/
def State.tableRead (s : State) (pa n : Nat) : Except Cause Nat :=
  match s.keyPair pa 0 with
  | none => .error .keySlot
  | some key => if s.dram.poisoned pa n then .error .dramPoison else .ok (s.dram.read key pa n)

/-- The levels of a walk from a table, `level + 1` of them. -/
def State.walkFrom (s : State) (va : Nat) (write : Bool) (g : BitVec 32) : Nat → Nat → Except Cause Xentry
  | table, level =>
    match s.tableRead (table + 8 * tableIndex level va) 8 with
    | .error c => .error c
    | .ok n =>
      let e := word n
      if !entryValid e level then .error .xlateMiss
      else if e.getLsbD 1 then
        if write && !e.getLsbD 2 then .error .xlatePerm
        else .ok { page := va / pageBytes level, level := level, entry := e, gen := g }
      else match level with
        | 0 => .error .xlateMiss
        | l + 1 => s.walkFrom va write g (entryAddr e) l

/-- The root's generation (R358). -/
def State.rootGen (s : State) (t : Nat) : Except Cause (BitVec 32) :=
  match s.tableRead ((s.tile t).eng.xnode.root + 8) 4 with
  | .error c => .error c
  | .ok n => .ok (BitVec.ofNat 32 n)

/-- A walk of the tile's translation node (R360). -/
def State.walk (s : State) (t va : Nat) (write : Bool) : Except Cause Xentry :=
  let x := (s.tile t).eng.xnode
  match s.rootGen t with
  | .error c => .error c
  | .ok g =>
    if below g x.rgen then .error .xlateStale
    else match s.tableRead x.root 8 with
      | .error c => .error c
      | .ok n => s.walkFrom va write g (entryAddr (word n)) 3

/-! ## Chase control blocks (R411, R412) -/

/-- A field of a CCB, read under the system slot (R411). -/
def State.ccbGet (s : State) (ccb off n : Nat) : Option Nat :=
  match s.tableRead (ccb + off) n with | .ok v => some v | .error _ => none

/-- An effective value (R412): the CCB's own field at a root or with its override bit set, else the parent's. A chain of more than
`fuel` blocks has none. -/
def State.effective (s : State) (bit off n : Nat) : Nat → Nat → Option Nat
  | 0, _ => none
  | fuel + 1, ccb =>
    match s.ccbGet ccb 1 1, s.ccbGet ccb 3 1 with
    | some flags, some ovr =>
      if flags / 2 % 2 = 1 ∨ ovr / 2 ^ bit % 2 = 1 then s.ccbGet ccb off n
      else match s.ccbGet ccb 8 8 with
        | some parent => s.effective bit off n fuel parent
        | none => none
    | _, _ => none

/-- The effective key slot of a CCB (R411, R412). -/
def State.ccbKey (s : State) (ccb : Nat) : Option Nat := (s.effective 3 46 2 8 ccb).map (· % 1024)

/-- The key slot that a tile's node stamps on a request (R349): the effective slot of the CCB whose root it was given, read at each
use (R412); the slot given at imposition where the CCB yields none. -/
def State.nodeKey (s : State) (t : Nat) : Nat :=
  let x := (s.tile t).eng.xnode
  match if x.root < 16 then none else s.ccbKey (x.root - 16) with
  | some k => if k = 0 then x.key.toNat else k
  | none => x.key.toNat

/-- The state with a tile's translation node changed. -/
def State.modXnode (s : State) (t : Nat) (f : Xnode → Xnode) : State := s.modEng t fun e => { e with xnode := f e.xnode }

/-- The buffer entry for an access: one that maps it, and permits it (a write through an entry without w walks again). -/
def Xnode.hit (x : Xnode) (va : Nat) (write : Bool) : Option Xentry :=
  (x.buf.find? (·.maps va)).bind fun e => if write && !e.entry.getLsbD 2 then none else some e

/-- The buffer with an entry most recently used, 64 entries at most (R357). -/
def Xnode.fill (x : Xnode) (e : Xentry) : Xnode :=
  { x with buf := (e :: x.buf.filter fun o => !(o.page * pageBytes o.level < (e.page + 1) * pageBytes e.level &&
      e.page * pageBytes e.level < (o.page + 1) * pageBytes o.level)).take 64 }

/-! ## Which copy serves an access (R360, R365, R478) -/

/-- The attachment tile of an actor as (col, row) (R478). -/
def attachment (a : Nat) : Nat × Nat :=
  if a < 24 then (20 * (a / 3) + 3 + 7 * (a % 3), 0)
  else if a < 48 then let k := a - 24; (159, 27 * (k / 4) + 3 + 7 * (k % 4))
  else if a < 72 then let k := a - 48; (156 - 20 * (k / 3) - 7 * (k % 3), 161)
  else let k := a - 72; (0, 158 - 27 * (k / 4) - 7 * (k % 4))

/-- Distance of two numbers. -/
def dist (a b : Nat) : Nat := (a - b) + (b - a)

/-- Router hops from a tile to an actor's attachment tile (R478). -/
def hopsTo (t a : Nat) : Nat := dist (colOf t) (attachment a).1 + dist (rowOf t) (attachment a).2

/-- The duplicate actors of an entry (R359). -/
def dupsOf (e : Word) : List Nat :=
  if e.getLsbD 3 then [bits e 44 7, bits e 51 7].filter (· != 0x7F) else []

/-- The actor nearest to a tile among some, ties to the lower number (R360). -/
def nearest (t : Nat) : List Nat → Nat → Nat
  | [], best => best
  | a :: as, best => nearest t as (if hopsTo t a < hopsTo t best ∨ (hopsTo t a = hopsTo t best ∧ a < best) then a else best)

/-- Every token of the duplicate has been written since the collapse (R365). -/
def Collapse.refilled (k : Collapse) : Bool := k.written.length == k.size / 128

/-- A duplicate has collapsed a page under the generation of a translation: until it is written afresh, and the generation is new
(R365). -/
def DramActor.hasCollapsed (d : DramActor) (page : Nat) (gen : BitVec 32) : Bool :=
  match d.collapsed.find page with
  | some k => !(k.refilled && below k.gen gen)
  | none => false

/-- A collapsed page `page` takes note of a write of `n` bytes at `off` of its actor (R365). -/
def Collapse.note (k : Collapse) (page off n : Nat) : Collapse :=
  let at_ := page % 2 ^ 37
  let toks := (List.range ((off % 128 + n + 127) / 128)).map (off / 128 + ·)
  { k with written := k.written ++ toks.filter fun x => decide (at_ ≤ 128 * x) && decide (128 * x < at_ + k.size) && !k.written.contains x }

/-- Bytes of DRAM written under a key pair; what of them lies in a collapsed duplicate counts towards its refilling (R349, R365). -/
def State.dramWrite (s : State) (key : BitVec 512) (pa n v : Nat) : State :=
  let s : State := { s with dram := s.dram.write key pa n v }
  if (s.actor (actorOf pa)).collapsed.isEmpty then s
  else s.modActor (actorOf pa) fun d => { d with collapsed := d.collapsed.map fun p => (p.1, p.2.note p.1 (pa % 2 ^ 37) n) }

/-- The physical address that a read goes to: the nearest copy, or the home where that copy has collapsed (R360, R365). -/
def State.readPa (s : State) (t : Nat) (e : Xentry) (va : Nat) : Nat :=
  let home := e.pa va
  let a := nearest t (dupsOf e.entry) (actorOf home)
  if a = actorOf home ∨ (s.actor a).hasCollapsed (entryAddr e.entry) e.gen then home else a * 2 ^ 37 + home % 2 ^ 37

/-- A write to a duplicated page sends an invalidation to every duplicate that still serves it; the writer owes an
acknowledgement for each (R128, R365), none for one that has collapsed it (R366). -/
def State.invalidateDups (s : State) (t core who va : Nat) (e : Xentry) : State :=
  let page := entryAddr e.entry
  let home := actorOf page
  if e.entry.getLsbD 3 then
    let h := s.actor home
    let fresh : DirEntry := { page := page, size := pageBytes e.level, gen := e.gen, owing := []
                              dups := (dupsOf e.entry).filter fun a => !(s.actor a).hasCollapsed page e.gen }
    let d := match h.dir.find? (·.page == page) with
      | some d => if below d.gen e.gen then { fresh with owing := d.owing } else d
      | none => fresh
    let owed := d.dups.map fun a => (⟨a, t, core, who, va / pageBytes e.level * pageBytes e.level, some s.now⟩ : DupAck)
    let s := s.modActor home fun h => { h with dir := { d with owing := d.owing ++ owed } :: h.dir.filter (·.page != page) }
    let s := d.dups.foldl (fun s a => s.post (.invalidate home a page t core who)) s
    if who < 16 then s.modCtx ⟨t, core, who⟩ fun k => { k with acks := k.acks + d.dups.length } else s
  else s

/-- Acknowledgements still owed for the writes of an engine operation (R128). -/
def State.owedAcks (s : State) (t core who : Nat) : Nat :=
  s.actors.foldl (fun n a => a.2.dir.foldl (fun n d => n + (d.owing.filter fun o => o.tile == t && o.core == core && o.who == who).length) n) 0

/-! ## Accesses of a core (R101, R140) -/

/-- What an access to D comes to. -/
inductive DRes where
  | act (a : Act)
  | value (v : Nat)
  | bad (c : Cause) (info : Word)
  | owed (id : Nat)

/-- The pieces of a range that lie in different smallest pages. -/
def pagePieces (va n : Nat) : List (Nat × Nat) :=
  let k := 2 ^ 19 - va % 2 ^ 19
  if n ≤ k then [(va, n)] else [(va, k), (va + k, n - k)]

/-- The translations of the pieces of an access, or the first byte whose page is not in the buffer. -/
def Xnode.hits (x : Xnode) (write : Bool) : List (Nat × Nat) → Except Nat (List (Nat × Nat × Xentry))
  | [] => .ok []
  | (va, n) :: ps =>
    match x.hit va write with
    | none => .error va
    | some e => match x.hits write ps with
      | .ok l => .ok ((va, n, e) :: l)
      | .error v => .error v

/-- The context under way accesses D physically (R101). -/
def State.physical (s : State) : Bool := s.me.trap.ts.pd && s.me.trap.ts.priv

/-- Key slot of the accesses of the context under way (R101, R349). -/
def State.mySlot (s : State) : Nat := if s.physical then 0 else s.nodeKey s.cur.tile

/-- `%einfo` of KEY_SLOT (R194). -/
def keySlotInfo (slot actor : Nat) : Word := word (slot + 1024 * actor)

/-- The pieces of an access as (physical address, bytes), those of a read taken from the copies that serve them. -/
structure DPiece where
  pa : Nat
  n : Nat
  va : Nat
  entry : Option Xentry

/-- Resolve an access of the context under way: its pieces, or what it comes to. Translations that it uses become most recently used. -/
def State.resolve (s : State) (addr n : Nat) (write : Bool) (size : Nat) : State × Except Act (List DPiece) :=
  if s.physical then (s, .ok [⟨addr, n, addr, none⟩])
  else match s.myTile.eng.xnode.hits write (pagePieces addr n) with
    | .error va => (s, .error (.wait (.xlate va write addr size)))
    | .ok l =>
      let s := l.foldl (fun s p => s.modXnode s.cur.tile (·.fill p.2.2)) s
      (s, .ok (l.map fun p => ⟨if write then p.2.2.pa p.1 else s.readPa s.cur.tile p.2.2 p.1, p.2.1, p.1, some p.2.2⟩))

/-- Kind of page of a piece; a physical piece is local. -/
def DPiece.kind (p : DPiece) : Nat := match p.entry with | some e => entryKind e.entry | none => 0

/-- The first piece whose actor has not loaded a key slot. -/
def State.keyFault (s : State) (slot : Nat) (ps : List DPiece) : Option (Cause × Word) :=
  (ps.find? fun p => p.kind == 0 && (s.keyPair p.pa slot).isNone).map fun p => (.keySlot, keySlotInfo slot (actorOf p.pa))

/-- Read the pieces of local pages. -/
def State.readPieces (s : State) (slot : Nat) : List DPiece → Nat
  | [] => 0
  | p :: ps => s.dram.read ((s.keyPair p.pa slot).getD 0) p.pa p.n + 256 ^ p.n * s.readPieces slot ps

/-- Write the pieces of local pages, as a writer. -/
def State.writePieces (s : State) (slot core who : Nat) (t : Nat) : List DPiece → Nat → State
  | [], _ => s
  | p :: ps, v =>
    let s := s.dramWrite ((s.keyPair p.pa slot).getD 0) p.pa p.n (v % 256 ^ p.n)
    let s := match p.entry with | some e => s.invalidateDups t core who p.va e | none => s
    s.writePieces slot core who t ps (v / 256 ^ p.n)

/-- The key pair under which the module encrypts for a slot: that of the first actor that has loaded it (assumption 17). -/
def State.slotPair (s : State) (slot : Nat) : BitVec 512 := (s.actors.findSome? fun a => a.2.keys.find slot).getD 0

/-- A piece cut at the tokens of its memory: each is one event there (R115, R369). -/
def DPiece.tokens : Nat → DPiece → List DPiece
  | 0, _ => []
  | fuel + 1, p =>
    let k := min p.n (128 - p.pa % 128)
    if p.n = 0 then [] else { p with n := k } :: DPiece.tokens fuel { p with pa := p.pa + k, n := p.n - k, va := p.va + k }

/-- Pieces with those of host or peer memory cut at their tokens. -/
def cutRemote (ps : List DPiece) : List DPiece := ps.flatMap fun p => if p.kind = 0 then [p] else p.tokens (p.n / 128 + 2)

/-- What leaves the module for bytes of a token: those of a kind-1 page encrypted (R369). -/
def State.outward (s : State) (slot : Nat) (p : DPiece) (v : Nat) : Nat :=
  if p.kind = 1 then Config.encryptPart (s.slotPair slot) (p.pa / 128) (p.pa % 128) p.n v else v

/-- A request of a core or an engine to host or peer memory (R369): a core's requester is written as port 16 + 16 core + ctx, an
engine operation's as 0x1000 and its holder. -/
def backingReq (op slot t port id : Nat) (by_ : Issuer) (p : DPiece) (v : Nat) : DramReq :=
  { op := op, aw := false, amo := 0, z := false, bytes := p.n, key := BitVec.ofNat 10 slot, chase := 0, rq := 0, tile := t, port := port
    seq := BitVec.ofNat 32 id, rtag := 0, rport := 0, by_ := by_, refused := false, rows := [⟨0, p.va, p.entry, p.pa⟩], value := 0
    cmp := 0, data := BitVec.ofNat 1024 v }

/-- Bytes of host or peer memory that a service of the module takes part of: free values (assumption 16). -/
def State.outsideBytes (s : State) (n : Nat) : State × Nat :=
  (s.draw n, natOfBytes ((List.range n).map fun i => Config.outsideByte (s.model.fresh + i)))

/-- The pieces of a range that lie in pages of different kinds: those of host or peer memory are free values. -/
def State.readMixed (s : State) (slot : Nat) : List DPiece → State × Nat
  | [] => (s, 0)
  | p :: ps =>
    let r := if p.kind = 0 then (s, s.dram.read ((s.keyPair p.pa slot).getD 0) p.pa p.n) else s.outsideBytes p.n
    let q := r.1.readMixed slot ps
    (q.1, r.2 + 256 ^ p.n * q.2)

/-- Write pieces of any kind, those of host or peer memory cut at their tokens: these leave as requests of the port that stands for their
writer (R369). -/
def State.writeCut (s : State) (slot t port : Nat) (by_ : Issuer) (who : Nat) : List DPiece → Nat → State
  | [], _ => s
  | p :: ps, v =>
    let s := if p.kind = 0 then s.writePieces slot by_.core who t [p] (v % 256 ^ p.n)
      else (s.drawTicket).post (.backing (backingReq 1 slot t port s.ticket by_ p (s.outward slot p (v % 256 ^ p.n))))
    s.writeCut slot t port by_ who ps (v / 256 ^ p.n)

/-- Write pieces of any kind. -/
def State.writeAny (s : State) (slot t port : Nat) (by_ : Issuer) (who : Nat) (ps : List DPiece) (v : Nat) : State :=
  s.writeCut slot t port by_ who (cutRemote ps) v

/-- A port's writes to host or peer memory have not all been performed (R369). -/
def State.outside (s : State) (t port : Nat) : Bool :=
  s.net.any fun m => match m with | .backing r => r.tile == t && r.port == port && r.op == 1 | _ => false

/-- Writes of an engine operation to host or peer memory have not all been performed (R124). -/
def State.opOutside (s : State) (t holder : Nat) : Bool := s.outside t (0x1000 + holder)

/-- A part of a read: a local piece's value, or what has come for a token of host or peer memory, which is else asked for. -/
def State.fetchPart (s : State) (slot t holder port : Nat) (by_ : Issuer) (p : DPiece) : State × Option Nat :=
  if p.kind = 0 then (s, some (s.dram.read ((s.keyPair p.pa slot).getD 0) p.pa p.n))
  else match (s.tile t).eng.xnode.remote.find? fun r => r.holder == holder && r.va == p.va && r.bytes == p.n with
    | some r => (s, r.value)
    | none =>
      let r : RemoteRead := ⟨holder, p.va, p.n, BitVec.ofNat 32 s.ticket, none⟩
      ((s.drawTicket.post (.backing (backingReq 0 slot t port s.ticket by_ p 0))).modXnode t fun x => { x with remote := x.remote ++ [r] }, none)

/-- The parts of a read: their value once every one has come (R369). -/
def State.fetchParts (s : State) (slot t holder port : Nat) (by_ : Issuer) : List DPiece → State × Option Nat
  | [] => (s, some 0)
  | p :: ps =>
    let r := s.fetchPart slot t holder port by_ p
    let q := r.1.fetchParts slot t holder port by_ ps
    (q.1, match r.2, q.2 with | some v, some w => some (v + 256 ^ p.n * w) | _, _ => none)

/-- The reads of a holder are over, or its operation is: what has come for them is dropped. -/
def State.dropRemote (s : State) (t holder : Nat) : State :=
  if (s.tile t).eng.xnode.remote.any (·.holder == holder) then
    s.modXnode t fun x => { x with remote := x.remote.filter fun r => r.holder != holder }
  else s

/-- The port that stands for a context at host or peer memory. -/
def Cur.backPort (u : Cur) : Nat := 16 + 16 * u.core + u.ctx

/-- The holder that stands for a context's load of several parts. -/
def Cur.holder (u : Cur) : Nat := 128 + 16 * u.core + u.ctx

/-- Stores of a context to host or peer memory that have not been performed (R369). -/
def State.outsideStores (s : State) (u : Cur) : Bool := s.outside u.tile u.backPort

/-- Accesses of a context to host or peer memory that have not been performed: stores on their way, and loads that are owed (R369). -/
def State.awaitsOutside (s : State) (u : Cur) : Bool :=
  s.outsideStores u || (s.ctx u).flights.any fun f => match f.value with | .owed _ _ _ => true | _ => false

/-- A load of `n` bytes by the context under way (R140, R349, R369): one token of host or peer memory is owed; the context waits for
the parts of a load that takes more. -/
def State.dLoad (s : State) (addr n : Nat) (size : Nat) : State × DRes :=
  match s.resolve addr n false size with
  | (s, .error a) => (s, .act a)
  | (s, .ok ps) =>
    let slot := s.mySlot
    match s.keyFault slot ps with
    | some (c, i) => (s, .act (.trap c i))
    | none =>
      if ps.any fun p => p.kind == 0 && s.dram.poisoned p.pa p.n then (s, .bad .dramPoison (infoM addr 4 size false))
      else if ps.all (·.kind == 0) then (s, .value (s.readPieces slot ps))
      else
        let u := s.cur
        match cutRemote ps with
        | [p] => (s.drawTicket.post (.backing (backingReq 0 slot u.tile u.backPort s.ticket ⟨u.core, u.ctx⟩ p 0)), .owed s.ticket)
        | ps => match s.fetchParts slot u.tile u.holder u.backPort ⟨u.core, u.ctx⟩ ps with
          | (s, some v) => (s.dropRemote u.tile u.holder, .value v)
          | (s, none) => (s, .act (.wait .remote))

/-- A store of `n` bytes by the context under way. -/
def State.dStore (s : State) (addr n v : Nat) (size : Nat) : State × Act :=
  match s.resolve addr n true size with
  | (s, .error a) => (s, a)
  | (s, .ok ps) =>
    let slot := s.mySlot
    let u := s.cur
    match s.keyFault slot ps with
    | some (c, i) => (s, .trap c i)
    | none => (s.writeAny slot u.tile u.backPort ⟨u.core, u.ctx⟩ u.ctx ps v, .done)

/-- An atomic of `n` bytes by the context under way (R160): the old value, and the new one written, unless it is an AMOCAS that leaves
the old one. -/
def State.dAmo (s : State) (addr n : Nat) (cas : Bool) (f : Nat → Nat) : State × DRes :=
  let size := sizeCode n
  match s.resolve addr n true size with
  | (s, .error a) => (s, .act a)
  | (s, .ok ps) =>
    let slot := s.mySlot
    let u := s.cur
    if ps.any (·.kind != 0) then (s, .act (.trap .atomicSpace (infoM addr 4 size true)))
    else match s.keyFault slot ps with
      | some (c, i) => (s, .act (.trap c i))
      | none =>
        if ps.any fun p => s.dram.poisoned p.pa p.n then (s, .bad .dramPoison (infoM addr 4 size true))
        else
          let old := s.readPieces slot ps
          let new := f old
          (if cas && new == old then s else s.writePieces slot u.core u.ctx u.tile ps new, .value old)

/-! ## Accesses of the engines (R357, R364) -/

/-- The translation of an engine's access: its pin, the buffer, or a walk that fills both (R357, R360). -/
def State.engXlate (s : State) (t holder va : Nat) (write : Bool) : State × Except Cause Xentry :=
  let x := (s.tile t).eng.xnode
  match (x.pins.find holder).filter fun e => e.maps va && (!write || e.entry.getLsbD 2) with
  | some e => (s, .ok e)
  | none =>
    match x.hit va write with
    | some e => (s.modXnode t fun x => { x.fill e with pins := x.pins.put holder e }, .ok e)
    | none => match s.walk t va write with
      | .ok e => (s.modXnode t fun x => { x.fill e with pins := x.pins.put holder e }, .ok e)
      | .error c => (s, .error c)

/-- Translate the pieces of an engine's access. -/
def State.engPieces (s : State) (t holder : Nat) (write : Bool) : List (Nat × Nat) → State × Except Cause (List DPiece)
  | [] => (s, .ok [])
  | (va, n) :: ps =>
    match s.engXlate t holder va write with
    | (s, .error c) => (s, .error c)
    | (s, .ok e) =>
      match s.engPieces t holder write ps with
      | (s, .error c) => (s, .error c)
      | (s, .ok l) => (s, .ok (⟨if write then e.pa va else s.readPa t e va, n, va, some e⟩ :: l))

/-- What a read of an engine comes to. -/
inductive EngRead where
  | value (v : Nat)
  | fault (c : Cause)
  /-- bytes of host or peer memory have been asked for, and have not all come (R369) -/
  | pending

/-- `n` bytes of D read by an engine. -/
def State.engRead (s : State) (t holder va n : Nat) : State × EngRead :=
  if 2 ^ 57 < va + n then (s, .fault .spaceRange)
  else
    let slot := s.nodeKey t
    match s.engPieces t holder false (pagePieces va n) with
    | (s, .error c) => (s, .fault c)
    | (s, .ok ps) =>
      if (s.keyFault slot ps).isSome then (s, .fault .keySlot)
      else if ps.any fun p => p.kind == 0 && s.dram.poisoned p.pa p.n then (s, .fault .dramPoison)
      else match s.fetchParts slot t holder (0x1000 + holder) ⟨0, 16⟩ (cutRemote ps) with
        | (s, some v) => (s, .value v)
        | (s, none) => (s, .pending)

/-- `n` bytes of D written by an engine operation, as writer `who` of a core. -/
def State.engWrite (s : State) (t core who holder va n v : Nat) : State × Except Cause Unit :=
  if 2 ^ 57 < va + n then (s, .error .spaceRange)
  else
    let slot := s.nodeKey t
    match s.engPieces t holder true (pagePieces va n) with
    | (s, .error c) => (s, .error c)
    | (s, .ok ps) =>
      if (s.keyFault slot ps).isSome then (s, .error .keySlot)
      else (s.writeAny slot t (0x1000 + holder) ⟨core, 16⟩ who ps v, .ok ())

end Sys2Proof.Machine
end

