-- ==== Sys2Proof/Machine/Scalar.lean ====
section
/-! DEFINITION. The arithmetic instructions of pages 0 and 1 (R141 to R144, R155 to R159). -/

namespace Sys2Proof.Machine

/-! ## Values -/

/-- 1 or 0. -/
def flag (b : Bool) : Word := if b then 1 else 0

/-- A shift count: bits [5:0] (R141). -/
def shamt (y : Word) : Nat := y.toNat % 64

/-- The low `n` bytes of a word, sign-extended. -/
def signExt (n : Nat) (w : Word) : Word := wordI (signedOf n w.toNat)

/-- The low `n` bytes of a word, zero-extended. -/
def zeroExt (n : Nat) (w : Word) : Word := word (w.toNat % 256 ^ n)

/-- Number of leading zero bits (R157). -/
def clz64 (w : Word) : Nat := if w = 0 then 64 else 63 - w.toNat.log2

/-- Number of trailing zero bits (R157). -/
def ctz64 (w : Word) : Nat := ((List.range 64).find? fun i => w.getLsbD i).getD 64

/-- Number of set bits (R157). -/
def popc64 (w : Word) : Nat := ((List.range 64).filter fun i => w.getLsbD i).length

/-- The bits in reverse order (R157). -/
def brev64 (w : Word) : Word := word ((List.range 64).foldl (fun v i => 2 * v + (w.getLsbD i).toNat) 0)

/-- Position and length of a field instruction (R159). -/
def fieldOf (o : Opnd) (b : Word) : Nat × Nat :=
  if o.ni = 2 then (o.imm.toNat % 64, o.imm.toNat / 64 % 64 + 1) else (bits b 0 6, bits b 8 6 + 1)

/-- The mask of a field (R159). -/
def fieldMask (pos len : Nat) : Word := word ((2 ^ len - 1) * 2 ^ pos)

/-- BFX (R159). -/
def bfx (a : Word) (f : Nat × Nat) : Word := (a &&& fieldMask f.1 f.2) >>> f.1

/-- BFXS (R159). -/
def bfxs (a : Word) (f : Nat × Nat) : Word :=
  let v := (bfx a f).toNat
  let w := min (f.1 + f.2) 64 - f.1
  if 2 ^ (w - 1) ≤ v then wordI ((v : Int) - 2 ^ w) else word v

/-- BFI (R159). -/
def bfi (d a : Word) (f : Nat × Nat) : Word :=
  let m := fieldMask f.1 f.2
  (d &&& ~~~m) ||| ((a <<< f.1) &&& m)

/-- The quotient and the remainder of a division, or its trap (R156). -/
def divided (o : Opnd) (q : Word → Word → Word) (s : State) : State × Act :=
  let x := s.rg (formX o)
  let y := s.rg (formY o)
  if y = 0 then (s, .trap .divideZero x) else computeLong o (fun _ => q x y) s

/-- Width of SEXT and ZEXT in bytes (R143). -/
def extWidth (o : Opnd) : Nat := 2 ^ o.mf 1 0

/-- Registers of a field instruction: BFI reads d (R159). -/
def useField (o : Opnd) (rd : Bool) : Use := .g ((if rd then [dn o] else []) ++ [an o] ++ (if o.ni = 0 then [bn o] else [])) [dn o]

/-! ## Page 0 -/

/-- ADD (R141). -/
def execAdd (o : Opnd) (s : State) : Host.Outcome State Fault Refusal :=
  meaning o (useForm o) (compute o fun s => let x := s.rg (formX o); let y := s.rg (formY o); x + y) s

/-- SUB (R141). -/
def execSub (o : Opnd) (s : State) : Host.Outcome State Fault Refusal :=
  meaning o (useForm o) (compute o fun s => let x := s.rg (formX o); let y := s.rg (formY o); x - y) s

/-- AND (R141). -/
def execAnd (o : Opnd) (s : State) : Host.Outcome State Fault Refusal :=
  meaning o (useForm o) (compute o fun s => let x := s.rg (formX o); let y := s.rg (formY o); x &&& y) s

/-- OR (R141). -/
def execOr (o : Opnd) (s : State) : Host.Outcome State Fault Refusal :=
  meaning o (useForm o) (compute o fun s => let x := s.rg (formX o); let y := s.rg (formY o); x ||| y) s

/-- XOR (R141). -/
def execXor (o : Opnd) (s : State) : Host.Outcome State Fault Refusal :=
  meaning o (useForm o) (compute o fun s => let x := s.rg (formX o); let y := s.rg (formY o); x ^^^ y) s

/-- SHL (R141). -/
def execShl (o : Opnd) (s : State) : Host.Outcome State Fault Refusal :=
  meaning o (useForm o) (compute o fun s => let x := s.rg (formX o); let y := s.rg (formY o); x <<< shamt y) s

/-- SHR (R141). -/
def execShr (o : Opnd) (s : State) : Host.Outcome State Fault Refusal :=
  meaning o (useForm o) (compute o fun s => let x := s.rg (formX o); let y := s.rg (formY o); x >>> shamt y) s

/-- SAR (R141). -/
def execSar (o : Opnd) (s : State) : Host.Outcome State Fault Refusal :=
  meaning o (useForm o) (compute o fun s => let x := s.rg (formX o); let y := s.rg (formY o); x.sshiftRight (shamt y)) s

/-- SLT (R141). -/
def execSlt (o : Opnd) (s : State) : Host.Outcome State Fault Refusal :=
  meaning o (useForm o) (compute o fun s => let x := s.rg (formX o); let y := s.rg (formY o); flag (x.slt y)) s

/-- SLTZ (R141). -/
def execSltz (o : Opnd) (s : State) : Host.Outcome State Fault Refusal :=
  meaning o (useForm o) (compute o fun s => let x := s.rg (formX o); let y := s.rg (formY o); flag (x.ult y)) s

/-- ANDN (R141). -/
def execAndn (o : Opnd) (s : State) : Host.Outcome State Fault Refusal :=
  meaning o (useForm o) (compute o fun s => let x := s.rg (formX o); let y := s.rg (formY o); x &&& ~~~y) s

/-- ORN (R141). -/
def execOrn (o : Opnd) (s : State) : Host.Outcome State Fault Refusal :=
  meaning o (useForm o) (compute o fun s => let x := s.rg (formX o); let y := s.rg (formY o); x ||| ~~~y) s

/-- ADDI (R142). -/
def execAddi (o : Opnd) (s : State) : Host.Outcome State Fault Refusal :=
  meaning o (useDI o) (compute o fun s => let x := s.rg (srcReg o); x + immW o) s

/-- ANDI (R142). -/
def execAndi (o : Opnd) (s : State) : Host.Outcome State Fault Refusal :=
  meaning o (useDI o) (compute o fun s => let x := s.rg (srcReg o); x &&& immW o) s

/-- XORI (R142). -/
def execXori (o : Opnd) (s : State) : Host.Outcome State Fault Refusal :=
  meaning o (useDI o) (compute o fun s => let x := s.rg (srcReg o); x ^^^ immW o) s

/-- SHLI (R142). -/
def execShli (o : Opnd) (s : State) : Host.Outcome State Fault Refusal :=
  meaning o (useDI o) (compute o fun s => let x := s.rg (srcReg o); x <<< o.imm.toNat) s

/-- SHRI (R142). -/
def execShri (o : Opnd) (s : State) : Host.Outcome State Fault Refusal :=
  meaning o (useDI o) (compute o fun s => let x := s.rg (srcReg o); x >>> o.imm.toNat) s

/-- SARI (R142). -/
def execSari (o : Opnd) (s : State) : Host.Outcome State Fault Refusal :=
  meaning o (useDI o) (compute o fun s => let x := s.rg (srcReg o); x.sshiftRight o.imm.toNat) s

/-- SLTI (R142). -/
def execSlti (o : Opnd) (s : State) : Host.Outcome State Fault Refusal :=
  meaning o (useDI o) (compute o fun s => let x := s.rg (srcReg o); flag (x.slt (immW o))) s

/-- MOVI (R142). -/
def execMovi (o : Opnd) (s : State) : Host.Outcome State Fault Refusal :=
  meaning o (.g [] [dn o]) (compute o fun _ => immW o) s

/-- MOV (R143). -/
def execMov (o : Opnd) (s : State) : Host.Outcome State Fault Refusal :=
  meaning o (useUnary o) (compute o fun s => s.rg (an o)) s

/-- SEL (R143). -/
def execSel (o : Opnd) (s : State) : Host.Outcome State Fault Refusal :=
  meaning o (.g [dn o, an o, bn o] [dn o]) (compute o fun s => if s.rg (dn o) ≠ 0 then s.rg (an o) else s.rg (bn o)) s

/-- SEXT (R143). -/
def execSext (o : Opnd) (s : State) : Host.Outcome State Fault Refusal :=
  meaning o (useUnary o) (compute o fun s => signExt (extWidth o) (s.rg (an o))) s

/-- ZEXT (R143). -/
def execZext (o : Opnd) (s : State) : Host.Outcome State Fault Refusal :=
  meaning o (useUnary o) (compute o fun s => zeroExt (extWidth o) (s.rg (an o))) s

/-- LEA (R144). -/
def execLea (o : Opnd) (s : State) : Host.Outcome State Fault Refusal :=
  meaning o (.g [an o, bn o] [dn o]) (compute o fun s => s.rg (an o) + (s.rg (bn o) <<< o.f.toNat) + immW o) s

/-! ## Page 1 -/

/-- MUL (R155). -/
def execMul (o : Opnd) (s : State) : Host.Outcome State Fault Refusal :=
  meaning o (useForm o) (computeLong o fun s => let x := s.rg (formX o); let y := s.rg (formY o); x * y) s

/-- MULH (R155). -/
def execMulh (o : Opnd) (s : State) : Host.Outcome State Fault Refusal :=
  meaning o (useForm o) (computeLong o fun s => let x := s.rg (formX o); let y := s.rg (formY o); wordI (x.toInt * y.toInt / 2 ^ 64)) s

/-- MULHZ (R155). -/
def execMulhz (o : Opnd) (s : State) : Host.Outcome State Fault Refusal :=
  meaning o (useForm o) (computeLong o fun s => let x := s.rg (formX o); let y := s.rg (formY o); word (x.toNat * y.toNat / 2 ^ 64)) s

/-- MULW (R155). -/
def execMulw (o : Opnd) (s : State) : Host.Outcome State Fault Refusal :=
  meaning o (useForm o) (computeLong o fun s => let x := s.rg (formX o); let y := s.rg (formY o); signExt 4 (x * y)) s

/-- DIV (R156). -/
def execDiv (o : Opnd) (s : State) : Host.Outcome State Fault Refusal :=
  meaning o (useForm o) (divided o fun x y => x.sdiv y) s

/-- DIVZ (R156). -/
def execDivz (o : Opnd) (s : State) : Host.Outcome State Fault Refusal :=
  meaning o (useForm o) (divided o fun x y => x / y) s

/-- REM (R156). -/
def execRem (o : Opnd) (s : State) : Host.Outcome State Fault Refusal :=
  meaning o (useForm o) (divided o fun x y => x.srem y) s

/-- REMZ (R156). -/
def execRemz (o : Opnd) (s : State) : Host.Outcome State Fault Refusal :=
  meaning o (useForm o) (divided o fun x y => x % y) s

/-- CLZ (R157). -/
def execClz (o : Opnd) (s : State) : Host.Outcome State Fault Refusal :=
  meaning o (useUnary o) (compute o fun s => let x := s.rg (an o); word (clz64 x)) s

/-- CTZ (R157). -/
def execCtz (o : Opnd) (s : State) : Host.Outcome State Fault Refusal :=
  meaning o (useUnary o) (compute o fun s => let x := s.rg (an o); word (ctz64 x)) s

/-- POPC (R157). -/
def execPopc (o : Opnd) (s : State) : Host.Outcome State Fault Refusal :=
  meaning o (useUnary o) (compute o fun s => let x := s.rg (an o); word (popc64 x)) s

/-- BREV (R157). -/
def execBrev (o : Opnd) (s : State) : Host.Outcome State Fault Refusal :=
  meaning o (useUnary o) (compute o fun s => let x := s.rg (an o); brev64 x) s

/-- MINZ (R158). -/
def execMinz (o : Opnd) (s : State) : Host.Outcome State Fault Refusal :=
  meaning o (useForm o) (compute o fun s => let x := s.rg (formX o); let y := s.rg (formY o); if x.ult y then x else y) s

/-- MAXZ (R158). -/
def execMaxz (o : Opnd) (s : State) : Host.Outcome State Fault Refusal :=
  meaning o (useForm o) (compute o fun s => let x := s.rg (formX o); let y := s.rg (formY o); if x.ult y then y else x) s

/-- MIN (R158). -/
def execMin (o : Opnd) (s : State) : Host.Outcome State Fault Refusal :=
  meaning o (useForm o) (compute o fun s => let x := s.rg (formX o); let y := s.rg (formY o); if x.slt y then x else y) s

/-- MAX (R158). -/
def execMax (o : Opnd) (s : State) : Host.Outcome State Fault Refusal :=
  meaning o (useForm o) (compute o fun s => let x := s.rg (formX o); let y := s.rg (formY o); if x.slt y then y else x) s

/-- ABS (R158). -/
def execAbs (o : Opnd) (s : State) : Host.Outcome State Fault Refusal :=
  meaning o (useUnary o) (compute o fun s => let x := s.rg (an o); if x.msb then -x else x) s

/-- NEG (R158). -/
def execNeg (o : Opnd) (s : State) : Host.Outcome State Fault Refusal :=
  meaning o (useUnary o) (compute o fun s => -(s.rg (an o))) s

/-- BFX (R159). -/
def execBfx (o : Opnd) (s : State) : Host.Outcome State Fault Refusal :=
  meaning o (useField o false) (compute o fun s => bfx (s.rg (an o)) (fieldOf o (s.rg (bn o)))) s

/-- BFXS (R159). -/
def execBfxs (o : Opnd) (s : State) : Host.Outcome State Fault Refusal :=
  meaning o (useField o false) (compute o fun s => bfxs (s.rg (an o)) (fieldOf o (s.rg (bn o)))) s

/-- BFI (R159). -/
def execBfi (o : Opnd) (s : State) : Host.Outcome State Fault Refusal :=
  meaning o (useField o true) (compute o fun s => bfi (s.rg (dn o)) (s.rg (an o)) (fieldOf o (s.rg (bn o)))) s

end Sys2Proof.Machine
end

