-- ==== Sys2Proof/Machine/Memory.lean ====
section
/-! DEFINITION. Loads and stores, windows, the atomics, acquire and release (R100 to R113, R140, R145, R146, R160, R161). -/

namespace Sys2Proof.Machine

/-! ## The checks of an access (R105, R140) -/

/-- The space of a space field; T where the encoding allows none other. -/
def spaceOf (n : Nat) : Space := (Space.ofCode n).getD .t

/-- The local spaces. -/
def Space.isLocal : Space → Bool
  | .d => false
  | .t | .a | .c | .w | .x => true

/-- The range fault of D (R101, R103): virtual, or physical with its holes. -/
def State.dRange (s : State) (a n : Nat) : Option Cause :=
  if s.physical then
    if 2 ^ 44 ≤ a then some .spaceRange
    else if 96 ≤ actorOf a ∨ 96 ≤ actorOf (a + n - 1) then some .addrUnmapped
    else none
  else rangeFault .d a n

/-- The fault of a scalar access at issue, the first in the order of R105. -/
def State.accessFault (s : State) (sp : Space) (a n : Nat) (write forbidden aligned : Bool) : Option (Cause × Word) :=
  let info := infoM a sp.code (sizeCode n) write
  if forbidden then some (.bufferEngine, info)
  else match if sp == .d then s.dRange a n else rangeFault sp a n with
    | some c => some (c, info)
    | none =>
      if aligned && a % n != 0 then some (.align, info)
      else if sp.isLocal then s.quoinFault s.cur.tile s.cur.core sp a n write
      else none

/-- The key rows of the context under way (R109). -/
def State.myKey (s : State) : BitVec 56 := s.me.sys.bkey

/-- The value of a local read, or the data error that it meets (R106, R140). -/
def State.localLoad (s : State) (sp : Space) (a n : Nat) : Except (Cause × Word) Nat :=
  match s.badLocal s.cur.tile s.cur.core sp s.myKey a n with
  | some unit => .error (.localEcc, infoM unit sp.code (sizeCode n) false)
  | none => .ok (s.readLocal s.cur.tile s.cur.core sp s.myKey a n)

/-- A loaded value as a register takes it (R145). -/
def extend (n : Nat) (sx : Bool) (v : Nat) : Word := if sx then wordI (signedOf n v) else word v

/-- A load of `n` bytes into register `d`, after its checks (R140, R145). `acq`: later accesses wait for its value (R161). -/
def State.load (s : State) (sp : Space) (a n : Nat) (sx acq : Bool) (d len : Nat) : State × Act :=
  if sp.isLocal then
    match s.localLoad sp a n with
    | .error (c, i) => (s.launch (.g d) (.dataError c i) len, .done)
    | .ok v => (s.lg d (.word (extend n sx v)) len, .done)
  else match s.dLoad a n (sizeCode n) with
    | (s, .act x) => (s, x)
    | (s, .value v) => (s.lg d (.word (extend n sx v)) len, .done)
    | (s, .bad c i) => (s.launch (.g d) (.dataError c i) len, .done)
    | (s, .owed id) => (s.launch (.g d) (.owed id n sx) len, if acq then .park else .done)

/-- A store of the low `n` bytes of `v`, after its checks. -/
def State.store (s : State) (sp : Space) (a n v : Nat) : State × Act :=
  if sp.isLocal then (s.writeLocal s.cur.tile s.cur.core sp s.myKey a n v, .done)
  else s.dStore a n (v % 256 ^ n) (sizeCode n)

/-- Bytes of a scalar access (R145). -/
def accSize (o : Opnd) : Nat := 2 ^ o.f.toNat

/-- The space that PX.M names (R56, R59). -/
def accSpace (o : Opnd) : Space := spaceOf (o.mf 9 7)

/-- The effect of LD and LDA. -/
def loadBody (o : Opnd) (sx acq : Bool) (s : State) : State × Act :=
  let sp := accSpace o
  let n := accSize o
  let a := (s.addrOf o).toNat
  match s.accessFault sp a n false (if acq then sp != .t && sp != .a && sp != .d else sp == .x) acq with
  | some (c, i) => (s, .trap c i)
  | none => s.load sp a n sx acq (dn o) o.len

/-- The effect of ST and STL. -/
def storeBody (o : Opnd) (aligned : Bool) (s : State) : State × Act :=
  let sp := accSpace o
  let n := accSize o
  let a := (s.addrOf o).toNat
  match s.accessFault sp a n true (sp != .t && sp != .a && sp != .d) aligned with
  | some (c, i) => (s, .trap c i)
  | none => s.store sp a n (s.rg (dn o)).toNat

/-- A release of a scope waits: until every earlier access of the context has been performed (R120, R161), and at chase scope or wider
(code 2, R54) for the acknowledgements that it is owed (R128). -/
def State.owes (s : State) (u : Cur) (scope : Nat) : Bool := (decide (scope ≤ 2) && decide ((s.ctx u).acks ≠ 0)) || s.awaitsOutside u

/-- A release of the context under way waits. -/
def State.owesAt (s : State) (scope : Nat) : Bool := s.owes s.cur scope

/-- Registers of a load and of a store. -/
def useLoad (o : Opnd) : Use := .g [an o, bn o] [dn o]
def useStore (o : Opnd) : Use := .g [an o, bn o, dn o] []

/-- LD (R145). -/
def execLd (o : Opnd) (s : State) : Host.Outcome State Fault Refusal :=
  meaning o (useLoad o) (loadBody o (o.mf 6 6 == 1) false) s

/-- ST (R145). -/
def execSt (o : Opnd) (s : State) : Host.Outcome State Fault Refusal := meaning o (useStore o) (storeBody o false) s

/-- LDA (R161). -/
def execLda (o : Opnd) (s : State) : Host.Outcome State Fault Refusal := meaning o (useLoad o) (loadBody o false true) s

/-- STL (R161): it waits as a release does. -/
def execStl (o : Opnd) (s : State) : Host.Outcome State Fault Refusal :=
  meaning o (useStore o) (fun s => if s.owesAt (o.mf 5 3) then (s, .wait (.fence 2 (o.mf 5 3))) else storeBody o true s) s

/-! ## Windows (R110 to R113, R146) -/

/-- A window descriptor's fields (R110). -/
structure Window where
  base : Nat
  space : Space
  length : Nat
  fmt : Nat
  pack : Nat
  scale : Int
  round : Nat
  sat : Bool
  zero : Bool

/-- The fields of `%wdescn` (R110). -/
def windowOf (w : Word) : Window :=
  { base := bits w 0 20, space := if w.getLsbD 20 then .a else .t, length := bits w 24 20, fmt := bits w 44 4, pack := bits w 48 2
    scale := (BitVec.ofNat 7 (bits w 50 7)).toInt, round := bits w 57 3, sat := w.getLsbD 60
    zero := bits w 21 3 == 0 && bits w 61 3 == 0 }

/-- Byte and half of an element (R112): half 1 is the high nibble of a dense s4 element. -/
def Window.place (w : Window) (e : Nat) : Nat × Nat :=
  if w.fmt = 13 ∧ w.pack = 0 then (w.base + e / 2, e % 2) else (w.base + e * fmtBytes w.fmt, 0)

/-- The first condition of R111 that a descriptor meets. -/
def Window.fault (w : Window) : Option Nat :=
  if w.length = 0 then some 1
  else if 14 ≤ w.fmt then some 2
  else if 2 ≤ w.pack then some 3
  else if w.pack = 1 ∧ w.fmt ≠ 13 then some 4
  else if w.scale ≠ 0 ∧ w.fmt ≠ 3 ∧ w.fmt ≠ 4 then some 5
  else if w.base % fmtBytes w.fmt ≠ 0 then some 6
  else if w.space.size < (w.place (w.length - 1)).1 + fmtBytes w.fmt then some 7
  else if !w.zero then some 8
  else if 5 ≤ w.round then some 9
  else none

/-- A window of the core under way. -/
def State.window (s : State) (n : Nat) : Window := windowOf (s.myCore.wdesc.get 0 n)

/-- The fault of an access to one element through a window (R105, R112). -/
def State.windowFault (s : State) (n e : Nat) (write : Bool) : Option (Cause × Word) :=
  let w := s.window n
  match w.fault with
  | some k => some (.windowFormat, word (n + 16 * k))
  | none =>
    if w.length ≤ e then some (.spaceRange, infoM e 7 (sizeCode (fmtBytes w.fmt)) write)
    else s.quoinFault s.cur.tile s.cur.core w.space (w.place e).1 (fmtBytes w.fmt) write

/-- The stored bits of an element. -/
def State.windowBits (s : State) (w : Window) (e : Nat) : Nat :=
  let p := w.place e
  s.readLocal s.cur.tile s.cur.core w.space s.myKey p.1 (fmtBytes w.fmt) / 16 ^ p.2

/-- The state with an element's bits stored: a dense s4 element leaves the other nibble (R113). -/
def State.windowStore (s : State) (w : Window) (e v : Nat) : State :=
  let p := w.place e
  let old := s.readLocal s.cur.tile s.cur.core w.space s.myKey p.1 1
  let v := v % 2 ^ fmtBits w.fmt
  let v := if w.fmt = 13 ∧ w.pack = 0 then (if p.2 = 0 then old / 16 * 16 + v else old % 16 + 16 * v) else v
  s.writeLocal s.cur.tile s.cur.core w.space s.myKey p.1 (fmtBytes w.fmt) v

/-- The format of a register type (R146). -/
def regType (f : Nat) : Nat := if f = 0 then 0 else if f = 1 then 2 else 7

/-- A loaded register value (R146). -/
def regValue (f v : Nat) : Word := if f = 2 then wordI (signedOf 4 v) else word v

/-- LDW (R146). -/
def execLdw (o : Opnd) (s : State) : Host.Outcome State Fault Refusal :=
  meaning o (useLoad o) (fun s =>
    let n := o.mf 3 0
    let e := (s.addrOf o).toNat
    match s.windowFault n e false with
    | some (c, i) => (s, .trap c i)
    | none =>
      let w := s.window n
      let p := w.place e
      match s.badLocal s.cur.tile s.cur.core w.space s.myKey p.1 (fmtBytes w.fmt) with
      | some unit => (s.launch (.g (dn o)) (.dataError .localEcc (infoM unit w.space.code (sizeCode (fmtBytes w.fmt)) false)) o.len, .done)
      | none =>
        let r := convert w.fmt (regType o.f.toNat) s.me.sys.fmode.toNat w.scale 0 .vcvt (s.windowBits w e)
        ((s.addFlags r.2).lg (dn o) (.word (regValue o.f.toNat r.1)) o.len, .done)) s

/-- STW (R146). -/
def execStw (o : Opnd) (s : State) : Host.Outcome State Fault Refusal :=
  meaning o (useStore o) (fun s =>
    let n := o.mf 3 0
    let e := (s.addrOf o).toNat
    match s.windowFault n e true with
    | some (c, i) => (s, .trap c i)
    | none =>
      let w := s.window n
      let r := convert (regType o.f.toNat) w.fmt (roundMode w.round s.me.sys.fmode) 0 w.scale (if w.sat then .on else .off)
        (s.rg (dn o)).toNat
      ((s.windowStore w e r.1).addFlags r.2, .done)) s

/-! ## Atomics (R160) -/

/-- Bytes of an atomic. -/
def amoSize (o : Opnd) : Nat := if o.mf 2 2 = 1 then 4 else 8

/-- The register of the value operand. -/
def amoVal (o : Opnd) : Nat := if o.r then bn o else dn o

/-- The effect of an atomic whose new value is `f old x d`, all of them of 8 n bits. -/
def amoBody (o : Opnd) (cas : Bool) (f : Nat → Nat → Nat → Nat) (s : State) : State × Act :=
  let sp := accSpace o
  let n := amoSize o
  let a := (s.rg (an o)).toNat
  let x := (s.rg (amoVal o)).toNat % 256 ^ n
  let d := (s.rg (dn o)).toNat % 256 ^ n
  let upd (old : Nat) := f old x d % 256 ^ n
  match s.accessFault sp a n true (sp != .t && sp != .d) true with
  | some (c, i) => (s, .trap c i)
  | none =>
    if sp == .t then
      match s.localLoad .t a n with
      | .error (c, i) => (s.launch (.g (dn o)) (.dataError c i) o.len, .done)
      | .ok old =>
        let s := if upd old = old then s else s.writeLocal s.cur.tile s.cur.core .t s.myKey a n (upd old)
        (s.lg (dn o) (.word (word old)) o.len, .done)
    else match s.dAmo a n cas upd with
      | (s, .act x) => (s, x)
      | (s, .value old) => (s.lg (dn o) (.word (word old)) o.len, .done)
      | (s, .bad c i) => (s.launch (.g (dn o)) (.dataError c i) o.len, .done)
      | (s, .owed _) => (s, .done)

/-- Registers of an atomic; AMOCAS reads d beside its value. -/
def useAmo (o : Opnd) (cas : Bool) : Use := .g ([an o, amoVal o] ++ (if cas then [dn o] else [])) [dn o]

/-- Signed or unsigned order of values of 8 n bits, by z (R160). -/
def amoLess (o : Opnd) (x y : Nat) : Bool :=
  if o.mf 6 6 = 1 then decide (x < y) else decide (signedOf (amoSize o) x < signedOf (amoSize o) y)

/-- AMOADD (R160). -/
def execAmoadd (o : Opnd) (s : State) : Host.Outcome State Fault Refusal :=
  meaning o (useAmo o false) (amoBody o false fun old x _ => old + x) s

/-- AMOAND (R160). -/
def execAmoand (o : Opnd) (s : State) : Host.Outcome State Fault Refusal :=
  meaning o (useAmo o false) (amoBody o false fun old x _ => old &&& x) s

/-- AMOOR (R160). -/
def execAmoor (o : Opnd) (s : State) : Host.Outcome State Fault Refusal :=
  meaning o (useAmo o false) (amoBody o false fun old x _ => old ||| x) s

/-- AMOXOR (R160). -/
def execAmoxor (o : Opnd) (s : State) : Host.Outcome State Fault Refusal :=
  meaning o (useAmo o false) (amoBody o false fun old x _ => old ^^^ x) s

/-- AMOMIN (R160). -/
def execAmomin (o : Opnd) (s : State) : Host.Outcome State Fault Refusal :=
  meaning o (useAmo o false) (amoBody o false fun old x _ => if amoLess o x old then x else old) s

/-- AMOMAX (R160). -/
def execAmomax (o : Opnd) (s : State) : Host.Outcome State Fault Refusal :=
  meaning o (useAmo o false) (amoBody o false fun old x _ => if amoLess o old x then x else old) s

/-- AMOSWP (R160). -/
def execAmoswp (o : Opnd) (s : State) : Host.Outcome State Fault Refusal :=
  meaning o (useAmo o false) (amoBody o false fun _ x _ => x) s

/-- AMOCAS (R160). -/
def execAmocas (o : Opnd) (s : State) : Host.Outcome State Fault Refusal :=
  meaning o (useAmo o true) (amoBody o true fun old x d => if old = d then x else old) s

end Sys2Proof.Machine
end

