-- ==== Sys2Proof/Machine/Quire.lean ====
section
/-! DEFINITION. The quire sequencer (R147, R252 to R264). -/

namespace Sys2Proof.Machine

/-- A quire at tile reset: disabled (R253). -/
def Quire.reset : Quire :=
  { en := false, base := 0, leaf := 0, depth := 0, dmax := 0, parts := 0, lp := 0, turns := 0, banks := []
    tagged := 0, err := 0, raw := 0, marks := [] }

/-- A quire of a tile. -/
def State.quire (s : State) (t q : Nat) : Quire := (s.tile t).eng.quires.get Quire.reset q

/-- The state with a quire changed. -/
def State.modQuire (s : State) (t q : Nat) (f : Quire → Quire) : State :=
  s.modEng t fun e => { e with quires := e.quires.put q (f (e.quires.get Quire.reset q)) }

/-- The bank of a participant: cores 0 to 3, copy channels 4 to 11, matrix unit 12, vector unit 13 (R252, R253). -/
def Quire.bank (q : Quire) (p : Nat) : Nat := q.banks.get 0 p

/-- The quire with a bank changed. -/
def Quire.setBank (q : Quire) (p n : Nat) : Quire := { q with banks := q.banks.set 0 p n }

/-- A participant of an enabled quire. -/
def Quire.takes (q : Quire) (p : Nat) : Bool := q.en && q.parts.getLsbD p

/-- The participants. -/
def Quire.members (q : Quire) : List Nat := (List.range 14).filter fun p => q.parts.getLsbD p

/-- An arrival of a participant (R255). One that is no participant of an enabled quire ignores it. -/
def Quire.arrive (q : Quire) (p : Nat) : Quire := if q.takes p then q.setBank p (q.bank p + 1) else q

/-- Every participant has arrived (R257). -/
def Quire.due (q : Quire) : Bool := q.en && q.members.all fun p => decide (1 ≤ q.bank p)

/-- The turn (R257). -/
def Quire.turn (q : Quire) : Quire :=
  { q with banks := q.members.foldl (fun b p => b.set 0 p (q.bank p - 1)) q.banks
           lp := (q.lp + 1) % q.depth
           turns := q.turns + 1 }

/-- The slot address of a leaf distance (R254). -/
def Quire.slot (q : Quire) (k : Int) : Nat := q.base + (((q.lp : Int) + k) % (q.depth : Int)).toNat * q.leaf

/-- A permitted distance (R254). -/
def Quire.reaches (q : Quire) (k : Int) : Bool := decide (-((q.depth : Int) - 1 - q.dmax) ≤ k) && decide (k ≤ q.dmax)

/-- The contexts of a tile. -/
def State.ctxList (s : State) (t : Nat) : List Cur :=
  (s.tile t).cores.flatMap fun c => c.2.ctxs.map fun x => ⟨t, c.1, x.1⟩

/-- The wait of a context, if it waits. -/
def Ctx.waits (k : Ctx) : Option Wait :=
  match k.status with
  | .waiting w => some w
  | .free | .ready | .running | .parked => none

/-- A wait on a quire that is no QCFG's (R258, R263). -/
def Wait.onQuire (q : Nat) : Wait → Bool
  | .quireTurns p _ => p == q
  | .quireBank p _ => p == q
  | .quireNext p _ => p == q
  | _ => false

/-- Some context of the tile waits on a quire. -/
def State.quireWaited (s : State) (t q : Nat) : Bool :=
  (s.ctxList t).any fun u => match (s.ctx u).waits with | some w => w.onQuire q | none => false

/-- Fields k and q of LDQ and STQ (R56). -/
def qNum (o : Opnd) : Nat := o.mf 2 0
def qDist (o : Opnd) : Int := (BitVec.ofNat 5 (o.mf 7 3)).toInt

/-- The fault of a quire access before its wait (R147). -/
def Quire.fault (q : Quire) (n : Nat) (o : Opnd) (a : Nat) (write : Bool) : Option (Cause × Word) :=
  let size := sizeCode (accSize o)
  let dist (en : Bool) : Cause × Word := (.quireDistance, word (n + 8 * o.mf 7 3 + 256 * (!en).toNat))
  if !q.en then some (dist false)
  else if q.leaf ≤ a then some (.spaceRange, infoM a 6 size write)
  else if q.leaf < a + accSize o then some (.windowCross, infoM a 6 size write)
  else if !q.reaches (qDist o) then some (dist true)
  else none

/-- A quire access: its faults, its wait for the turns its core has arrived for, and its address in T (R147, R258). -/
def quireAccess (o : Opnd) (write : Bool) (act : State → Nat → State × Act) (s : State) : State × Act :=
  let n := qNum o
  let q := s.quire s.cur.tile n
  let a := (s.addrOf o).toNat
  match q.fault n o a write with
  | some (c, i) => (s, .trap c i)
  | none =>
    let bank := q.bank s.cur.core
    if q.takes s.cur.core && decide (bank ≠ 0) && !s.me.granted then (s, .wait (.quireTurns n bank))
    else
      let addr := q.slot (qDist o) + a
      match s.quoinFault s.cur.tile s.cur.core .t addr (accSize o) write with
      | some (c, i) => (s, .trap c i)
      | none => act s addr

/-- LDQ (R147). -/
def execLdq (o : Opnd) (s : State) : Host.Outcome State Fault Refusal :=
  meaning o (useLoad o) (quireAccess o false fun s a => s.load .t a (accSize o) false false (dn o) o.len) s

/-- STQ (R147). -/
def execStq (o : Opnd) (s : State) : Host.Outcome State Fault Refusal :=
  meaning o (useStore o) (quireAccess o true fun s a => s.store .t a (accSize o) (s.rg (dn o)).toNat) s

/-- The number in a field a whose upper bits are zero. -/
def aNum (o : Opnd) : Nat := o.a.toNat % 16

/-- The vector write streams of a core, with what has been appended to each. -/
def Core.vectorMarks (k : Core) : List (Nat × BitVec 32 × BitVec 32) :=
  k.streams.filterMap fun p => match p.2.bind with
    | some b => if 8 ≤ p.1 ∧ b.write then some (p.1, b.ident, BitVec.ofNat 32 b.count) else none
    | none => none

/-- A core arrives at a quire; where the vector unit takes part, what its contexts have appended is marked (R255). -/
def State.coreArrive (s : State) (t q c : Nat) : State :=
  let k := s.quire t q
  if k.takes c then
    s.modQuire t q fun k =>
      let k := k.arrive c
      if k.takes 13 then { k with marks := k.marks.put c (k.marks.get [] c ++ [(s.core t c).vectorMarks]) } else k
  else s

/-- QARRIVE (R261): a release into the turn (R120). -/
def execQarrive (o : Opnd) (s : State) : Host.Outcome State Fault Refusal :=
  memberwise o (fun s =>
    let n := aNum o
    let q := s.quire s.cur.tile n
    if !q.takes s.cur.core then (s, .done)
    else if s.owesAt 3 then (s, .wait (.fence 2 3))
    else if 15 ≤ q.bank s.cur.core then (s, .wait (.quireBank n 15))
    else (s.coreArrive s.cur.tile n s.cur.core, .done)) s

/-- QWAIT (R261). -/
def execQwait (o : Opnd) (s : State) : Host.Outcome State Fault Refusal :=
  memberwise o (fun s =>
    let n := aNum o
    let q := s.quire s.cur.tile n
    if !q.en then (s, .done)
    else if q.takes s.cur.core then (if q.bank s.cur.core = 0 then (s, .done) else (s, .wait (.quireBank n 1)))
    else if s.me.granted then (s, .done)
    else (s, .wait (.quireNext n q.turns))) s

/-- The status of a quire (R262). -/
def Quire.status (q : Quire) (core : Nat) : Word :=
  let leaf0 := if q.en then q.base + q.lp * q.leaf else 0
  let arrived := (List.range 14).foldl (fun n p => n + (if q.bank p ≠ 0 then 2 ^ p else 0)) 0
  word (leaf0 + 2 ^ 20 * (q.lp % 16) + 2 ^ 24 * q.bank core + 2 ^ 28 * q.en.toNat + 2 ^ 29 * (q.parts.getLsbD core).toNat
    + 2 ^ 32 * arrived + 2 ^ 48 * q.err + 2 ^ 56 * (q.turns.toNat % 256))

/-- QSTAT (R262): single-cycle. -/
def execQstat (o : Opnd) (s : State) : Host.Outcome State Fault Refusal :=
  meaning o (.g [] [dn o]) (compute o fun s => (s.quire s.cur.tile (aNum o)).status s.cur.core) s

/-- Bytes [at, at + n) of a descriptor held as a number. -/
def field (v at_ n : Nat) : Nat := v / 256 ^ at_ % 256 ^ n

/-- The offset of the first failing field of a 32-byte quire descriptor (R252, R263). -/
def quireCheck (v : Nat) : Option Nat :=
  let base := field v 0 4
  let leaf := field v 4 4
  let n := field v 8 1
  let parts := field v 12 2
  if field v 10 1 % 2 = 0 then none
  else if 0x100000 ≤ base ∨ base % 128 ≠ 0 then some 0
  else if 0x100000 ≤ leaf ∨ leaf % 128 ≠ 0 ∨ leaf < 128 ∨ 0x100000 < base + n * leaf then some 4
  else if n < 2 ∨ 16 < n then some 8
  else if field v 9 1 < 1 ∨ n - 1 < field v 9 1 then some 9
  else if 1 < field v 10 1 then some 10
  else if n ≤ field v 11 1 then some 11
  else if parts = 0 ∨ 2 ^ 14 ≤ parts ∨ (parts / 2 ^ 13 = 1 ∧ parts % 16 = 0) then some 12
  else if field v 14 2 ≠ 0 then some 14
  else if field v 24 8 ≠ 0 then some 24
  else none

/-- A quire with a descriptor loaded (R263). -/
def Quire.load (q : Quire) (v : Nat) : Quire :=
  match quireCheck v with
  | some k => { q with en := false, err := 1 + k }
  | none =>
    { en := field v 10 1 % 2 == 1, base := field v 0 4 % 2 ^ 20, leaf := field v 4 4 % 2 ^ 20, depth := field v 8 1
      dmax := field v 9 1, parts := BitVec.ofNat 14 (field v 12 2)
      lp := field v 11 1, turns := BitVec.ofNat 64 (field v 16 8), banks := [], tagged := q.tagged, err := 0, raw := v, marks := [] }

/-- A quire may be loaded: every bank is zero, nothing tagged is outstanding, and no context waits on it (R263). -/
def State.quireIdle (s : State) (t q : Nat) : Bool :=
  let k := s.quire t q
  k.banks.isEmpty && k.tagged == 0 && !s.quireWaited t q

/-- QCFG (R263): in a gang only the leader's acts. -/
def execQcfg (o : Opnd) (s : State) : Host.Outcome State Fault Refusal :=
  meaning o (.g [dn o] []) (fun s =>
    let t := s.cur.tile
    let a := (s.rg (dn o)).toNat
    let n := aNum o
    if s.isFollower then (s, .done)
    else match descFault a 32 <|> s.descHit a 32 with
      | some (c, i) => (s, .trap c i)
      | none =>
        if !s.quireIdle t n then (s, .wait (.quireClear n))
        else match s.badLocal t 0 .t noKey a 32 with
          | some unit => (s, .trap .localEcc (infoM unit 0 3 false))
          | none => (s.modQuire t n (·.load (s.readLocal t 0 .t noKey a 32)), .done)) s

/-! ## Arrivals and the turn, as steps -/

/-- The contexts that a turn concerns: an access waits one turn less, and is carried out once it has waited for all; a QWAIT of a
core that is no participant completes (R258, R261). -/
def Ctx.quireTurned (q : Nat) (k : Ctx) : Ctx :=
  match k.status with
  | .waiting (.quireTurns p n) =>
    if p = q then (if n ≤ 1 then { k with status := .ready, granted := true } else { k with status := .waiting (.quireTurns p (n - 1)) }) else k
  | .waiting (.quireNext p _) => if p = q then { k with status := .ready, granted := true } else k
  | .free | .ready | .running | .parked | .waiting _ => k

/-- QUIRE_TURN (R257). -/
def execQuireTurn (t q : Nat) (s : State) : Host.Outcome State Fault Refusal :=
  if (s.quire t q).due && !s.unitHeld t 3 q then
    .next ((s.ctxList t).foldl (fun s u => s.modCtx u (·.quireTurned q)) (s.modQuire t q Quire.turn))
  else .next s

/-- The elements that a mark counts have been performed, or their binding has ended. -/
def Core.markDone (k : Core) (m : Nat × BitVec 32 × BitVec 32) : Bool :=
  match (k.streams.find m.1).bind (·.bind) with
  | some b => b.ident != m.2.1 || (let d := (BitVec.ofNat 32 (b.count - b.open_.length)) - m.2.2; decide (d.toNat < 2 ^ 31))
  | none => true

/-- The vector unit is to arrive for the next turn (R255). -/
def State.vectorDue (s : State) (t q : Nat) : Bool :=
  let k := s.quire t q
  let cores := (List.range 4).filter fun c => k.parts.getLsbD c
  k.takes 13 && decide (k.bank 13 < 15) && !cores.isEmpty &&
  cores.all fun c => match k.marks.get [] c with
    | [] => false
    | m :: _ => m.all (s.core t c).markDone

/-- VECTOR_UNIT_ARRIVAL (R255). -/
def execVectorUnitArrival (t q : Nat) (s : State) : Host.Outcome State Fault Refusal :=
  .next (if s.vectorDue t q && !s.unitHeld t 3 q then
      s.modQuire t q fun k => { k.arrive 13 with marks := k.marks.map fun p => (p.1, p.2.tail) }
    else s)

end Sys2Proof.Machine
end

