-- ==== Sys2Proof/Machine/Clock.lean ====
section
/-! DEFINITION. The clock and power engine (chapter 17 of spec/): steps and plans, frequency lock and reference time, the throttle
and the clamps, the power steward, watchdogs and load sharing. -/

namespace Sys2Proof.Machine

/-- The state with a tile's clock changed. -/
def State.modClk (s : State) (t : Nat) (f : TileClock → TileClock) : State := s.modTile t fun y => { y with clk := f y.clk }

/-- The tiles that boot has found live. -/
def State.liveTiles (s : State) : List Nat := (s.tiles.filter fun p => p.2.place.live).map Prod.fst

/-! ## Steps (R434 to R437, R442) -/

/-- The bands of a plan as (lo, hi) in kHz (R437). -/
def planBands (plan : List Word) : List (Nat × Nat) := plan.tail.map fun w => (bits w 0 32, bits w 32 32)

/-- A step is barred by bands (R437). -/
def barredBy (bands : List (Nat × Nat)) (n : Nat) : Bool :=
  (List.range 16).any fun i =>
    let f := 62500 * (n + 1) * (i + 1)
    bands.any fun b => (decide (b.1 ≤ f) && decide (f ≤ b.2)) || (decide (4 * b.1 ≤ f) && decide (f ≤ 4 * b.2))

/-- A step is barred by the loaded plan. -/
def TileClock.barred (k : TileClock) (n : Nat) : Bool := barredBy (planBands k.plan) n

/-- The available step (R435). -/
def TileClock.avail (k : TileClock) : Nat :=
  match (List.range (min k.tcap k.zcap + 1)).reverse.find? fun n => !k.barred n with
  | some n => n
  | none => ((List.range 32).find? fun n => !k.barred n).getD 0

/-- The highest request of a tile's cores (R434). -/
def Tile.request (y : Tile) : Nat := (List.range 4).foldl (fun m c => max m (y.core c).freqReq) 0

/-- The target step (R435). -/
def Tile.target (y : Tile) : Nat :=
  let a := y.clk.avail
  let g := min y.request a
  if y.clk.barred g then a else g

/-- An entry of the frequency trace (R442). -/
def traceEntry (time step reason : Nat) (thr : Bool) : Word :=
  word (time % 2 ^ 48 + 2 ^ 48 * step + 2 ^ 53 * reason + 2 ^ 56 * thr.toNat)

/-- The clock with an entry traced. -/
def TileClock.record (k : TileClock) (time reason : Nat) : TileClock :=
  { k with trace := k.trace.put (k.total.toNat % 256) (traceEntry time k.step reason k.thr), total := k.total + 1 }

/-- The value of `%freq` (R434). -/
def Tile.freq (y : Tile) : Word :=
  word (y.clk.step + 2 ^ 5 * y.request + 2 ^ 10 * y.clk.avail + 2 ^ 15 * y.clk.tcap + 2 ^ 20 * y.clk.zcap + 2 ^ 25 * y.clk.thr.toNat
    + 2 ^ 26 * y.clk.lock.toNat + 2 ^ 27 * y.clk.src.toNat + 2 ^ 29 * y.clk.hold.toNat + 2 ^ 30 * y.clk.depth)

/-- The value of `%ftrace` (R442). -/
def TileClock.ftrace (k : TileClock) : Word := word (k.total.toNat % 256 + 256 * k.total.toNat)

/-- What limits the target: 0 the request, 1 tcap, 2 zcap, 3 the plan (R442). -/
def Tile.limit (y : Tile) : Nat :=
  if y.target = y.request then 0
  else if y.target = y.clk.tcap ∧ y.clk.tcap ≤ y.clk.zcap then 1
  else if y.target = y.clk.zcap then 2
  else 3

/-- A tile takes a new step (R436, R442). -/
def State.setStep (s : State) (t n reason : Nat) : State :=
  let now := s.rtime t
  s.modClk t fun k => TileClock.record { k with step := n, stepAt := s.now } now reason

/-- Whether a tile's step may change now: down at once, up one step 200 ns after the last change (R436). -/
def State.stepDue (s : State) (t : Nat) : Bool :=
  let y := s.tile t
  decide (y.target < y.clk.step) || (decide (y.clk.step < y.target) && decide (y.clk.stepAt + 200 ≤ s.now))

/-- STEP_CHANGE (R436). -/
def execStepChange (t : Nat) (s : State) : Host.Outcome State Fault Refusal :=
  let y := s.tile t
  .next (if s.stepDue t then s.setStep t (if y.target < y.clk.step then y.target else y.clk.step + 1) y.limit else s)

/-- CLKPLAN (R438, R439): the status, and the plan loaded. -/
def execClkplan (o : Opnd) (s : State) : Host.Outcome State Fault Refusal :=
  meaning o .none (kernelOp (.clkplan o) (.g [an o] [dn o]) fun s =>
    let t := s.cur.tile
    let a := (s.rg (an o)).toNat
    let check (n : Nat) : Option (Cause × Word) :=
      (s.areaFault a n 8 false) <|> (s.badLocal t 0 .t noKey a n).map fun u => (.localEcc, infoM u 0 3 false)
    match check 8 with
      | some (c, i) => (s, .trap c i)
      | none =>
        let header := word (s.readLocal t 0 .t noKey a 8)
        let count := bits header 8 6
        let n := min count 32
        match check (8 + 8 * n) with
        | some (c, i) => (s, .trap c i)
        | none =>
          let plan := header :: (List.range n).map fun i => word (s.readLocal t 0 .t noKey (a + 8 + 8 * i) 8)
          let status : Nat :=
            if bits header 0 8 ≠ 1 ∨ 32 < count ∨ bits header 14 50 ≠ 0 ∨ (planBands plan).any fun b => decide (b.2 < b.1) then 1
            else if (List.range 32).all (barredBy (planBands plan)) then 2
            else 0
          let s := if status = 0 then s.modClk t fun k => { k with plan := plan } else s
          (s.lg (dn o) (.word (word status)) o.len, .done)) s

/-! ## Frequency lock (R440) -/

/-- The neighbour of a tile in a direction: 0 north, 1 east, 2 south, 3 west; none beyond the edge. -/
def neighbour (t dir : Nat) : Option Nat :=
  if dir = 0 then (if rowOf t + 1 < 162 then some (t + 160) else none)
  else if dir = 1 then (if colOf t + 1 < 160 then some (t + 1) else none)
  else if dir = 2 then (if 0 < rowOf t then some (t - 160) else none)
  else if 0 < colOf t then some (t - 1) else none

/-- Some neighbour is locked to the tile. -/
def State.lockedTo (s : State) (t : Nat) : Bool :=
  (List.range 4).any fun d => match neighbour t d with
    | some n => let k := (s.tile n).clk; k.lock && decide (0 < k.depth) && neighbour n k.src.toNat == some t
    | none => false

/-- A tile may lock to its neighbour in a direction. -/
def State.mayLock (s : State) (t dir : Nat) : Bool :=
  match neighbour t dir with
  | some n =>
    (s.tile n).place.live && decide ((s.tile n).clk.depth ≤ 30) &&
    (decide ((s.tile n).clk.depth < (s.tile t).clk.depth) || !s.lockedTo t)
  | none => false

/-- Lock to the first neighbour that qualifies among some directions. -/
def State.lockSearch (s : State) (t : Nat) (dirs : List Nat) : State :=
  match dirs.find? (s.mayLock t) with
  | some d =>
    let depth := match neighbour t d with | some n => (s.tile n).clk.depth + 1 | none => 0
    s.modClk t fun k => { k with hold := false, src := BitVec.ofNat 2 d, depth := depth }
  | none => s

/-- A write of `%freq` (R434, R440): tcap, and lock and src with a new search from the neighbour written. -/
def State.writeFreq (s : State) (t : Nat) (v : Word) : State :=
  let src := bits v 27 2
  let s := s.modClk t fun k => { k with tcap := bits v 15 5, lock := v.getLsbD 26, src := BitVec.ofNat 2 src }
  if v.getLsbD 26 then s.lockSearch t [src, (src + 1) % 4, (src + 2) % 4, (src + 3) % 4]
  else s.modClk t fun k => { k with depth := 0, hold := false }

/-- CLOCK_HOLDOVER (R440): the source of a locked tile has died. -/
def execClockHoldover (t : Nat) (s : State) : Host.Outcome State Fault Refusal :=
  let k := (s.tile t).clk
  let src := k.src.toNat
  let dead := match neighbour t src with | some n => !(s.tile n).place.live | none => true
  .next (if k.lock && !k.hold && decide (0 < k.depth) && dead then
      let s := (s.modClk t fun k => { k with hold := true }).notify t 0 .clockHoldover (word src)
      s.lockSearch t [(src + 1) % 4, (src + 2) % 4, (src + 3) % 4]
    else s)

/-! ## Reference time (R441) -/

/-- Zone boundaries that a route crosses (R14). -/
def crossings (t u : Nat) : Nat := dist (colOf t / 20) (colOf u / 20) + dist (rowOf t / 27) (rowOf u / 27)

/-- Uncontended latency of a route in ns (R13, R14). -/
def routeLatency (t u : Nat) : Nat := 48 + 24 * crossings t u

/-- EDGE_TIME_MASTER_TICK (R441): every µs of its time the master sends a timing token down the tree; it reaches every live tile. -/
def execEdgeTimeMasterTick (s : State) : Host.Outcome State Fault Refusal :=
  let m := s.plat.time
  .next (if m.lastToken + 1000 ≤ s.now then
      let time := ((s.now : Int) + m.offset).toNat
      let s' := s.liveTiles.foldl (fun s t => s.post (.timing t time s.now)) s
      { s' with plat := { s'.plat with time := { s'.plat.time with lastToken := s.now } } }
    else s)

/-- The clock after a timing token: the part of the last correction already made is kept, and the new aim is set (R441). -/
def TileClock.aimAt (k : TileClock) (now : Nat) (target : Int) : TileClock :=
  let done := k.slew now
  let offset := k.offset + done
  { k with offset := offset, aim := target - ((now : Int) + offset), correctedAt := now - (now - k.correctedAt) % 10000 }

/-- TIMING_TOKEN (R441). -/
def execTimingToken (n : Nat) (s : State) : Host.Outcome State Fault Refusal :=
  match s.take n with
  | some (.timing t time _, s') =>
    .next (s'.modClk t (·.aimAt s'.now ((time : Int) + routeLatency 0 t)))
  | _ => .next s

/-- The lowest-numbered Ethernet port whose link is up and on which Sync messages arrive, other than one (R441). -/
def Platform.timePort (p : Platform) (but : Option Nat) : Option Nat :=
  (List.range 4).find? fun i => let e := p.eth.get EthPort.reset i; e.linkUp && e.syncSeen && some i != but

/-- Where no time port is named, the root of trust names one once a port qualifies (R441). -/
def State.nameTimePort (s : State) : State :=
  if s.plat.time.port.isSome then s
  else { s with plat := { s.plat with time := { s.plat.time with port := s.plat.timePort none, lastSync := s.now } } }

/-- SYNC_MESSAGE (R441): a Sync message reaches an Ethernet port; on the time port it corrects the master. -/
def execSyncMessage (port time : Nat) (s : State) : Host.Outcome State Fault Refusal :=
  let e := s.plat.eth.get EthPort.reset port
  if 4 ≤ port ∨ !e.linkUp then .next s
  else
    let s : State := { s with plat := { s.plat with eth := s.plat.eth.put port { e with syncSeen := true } } }
    let s := s.nameTimePort
    .next (if s.plat.time.port = some port then
        { s with plat := { s.plat with time := { s.plat.time with offset := (time : Int) - s.now, lastSync := s.now, freeRunning := false } } }
      else s)

/-- TIME_PORT_LOSS (R441): no link, or no Sync for 10 s: the master runs free, and the next port is named. -/
def execTimePortLoss (s : State) : Host.Outcome State Fault Refusal :=
  let m := s.plat.time
  match m.port with
  | some p =>
    let e := s.plat.eth.get EthPort.reset p
    .next (if !e.linkUp || decide (m.lastSync + 10 ^ 10 ≤ s.now) then
        { s with plat := { s.plat with
          eth := s.plat.eth.put p { e with syncSeen := false }
          time := { m with freeRunning := true, port := s.plat.timePort (some p), lastSync := s.now } } }
      else s)
  | none => .next s

/-! ## Throttle and clamps (R443 to R447) -/

/-- Bits [11:0] of THROTTLE_NOTICE (R443): no step changes. -/
def throttleInfo (step reason : Nat) : Word := word (step + 32 * step + 1024 * reason)

/-- The throttle's onset or release on every live tile (R443). -/
def State.throttleAll (s : State) (on : Bool) (reason : Nat) : State :=
  let s := { s with plat := { s.plat with power := { s.plat.power with throttled := on } } }
  s.liveTiles.foldl (fun s t =>
    let now := s.rtime t
    let s := s.modClk t fun k => TileClock.record { k with thr := on } now (if on then 4 else 5)
    s.notify t 0 .throttleNotice (throttleInfo (s.tile t).clk.step reason)) s

/-- An alarm condition is set or cleared. -/
def Power.alarm (p : Power) (reason : Nat) (v : Bool) : Power :=
  if reason = 0 then { p with alarmExternal := v } else if reason = 1 then { p with alarmThermal := v }
  else if reason = 2 then { p with alarmSteward := v } else p

/-- Some alarm condition stands. -/
def Power.alarmed (p : Power) : Bool := p.alarmExternal || p.alarmThermal || p.alarmSteward

/-- The state with the power and alarm state changed. -/
def State.modPower (s : State) (f : Power → Power) : State := { s with plat := { s.plat with power := f s.plat.power } }

/-- The reason that THROTTLE_NOTICE gives for an alarm (R443). -/
def alarmReason : Alarm → Nat
  | .external => 0
  | .thermal _ => 1
  | .steward => 2

/-- A temperature alarms from the threshold on (R445), the other two at once. -/
def alarmStands (p : Power) : Alarm → Bool
  | .external | .steward => true
  | .thermal celsius => decide (p.threshold ≤ celsius)

/-- ALARM_THROTTLE (R443, R445). -/
def execAlarmThrottle (alarm : Alarm) (s : State) : Host.Outcome State Fault Refusal :=
  if !alarmStands s.plat.power alarm then .next s
  else
    let s := s.modPower (·.alarm (alarmReason alarm) true)
    .next (if s.plat.power.throttled then s else s.throttleAll true (alarmReason alarm))

/-- ALARM_CLEAR (R443): an alarm condition ends. -/
def execAlarmClear (reason : Nat) (s : State) : Host.Outcome State Fault Refusal :=
  let before := s.plat.power.alarmed
  let s := s.modPower (·.alarm reason false)
  .next (if before && !s.plat.power.alarmed then s.modPower fun p => { p with clearedAt := s.now } else s)

/-- THROTTLE_RELEASE (R443, R448). -/
def execThrottleRelease (s : State) : Host.Outcome State Fault Refusal :=
  let p := s.plat.power
  let after := if p.hung || p.updating then 1000000 else 100000
  .next (if p.throttled && !p.alarmed && decide (p.clearedAt + after ≤ s.now) then s.throttleAll false 3 else s)

/-- CURRENT_CLAMP (R444): a tile whose current has exceeded its clamp for 1 µs lowers its step by one, and again for every further 1 µs. -/
def execCurrentClamp (t current : Nat) (s : State) : Host.Outcome State Fault Refusal :=
  let k := (s.tile t).clk
  .next (if k.clamp < current ∧ 0 < k.step ∧ k.clampedAt + 1000 ≤ s.now then
      (s.setStep t (k.step - 1) 6).modClk t fun k => { k with clampedAt := s.now }
    else s)

/-- BALLAST (R446): no visible effect but the time until which the ballast fades. -/
def execBallast (t : Nat) (s : State) : Host.Outcome State Fault Refusal :=
  .next (s.modClk t fun k => { k with ballastUntil := s.now + 2000 })

/-- Every context of a core is free, waiting or parked (R447). -/
def Core.quiet (k : Core) : Bool :=
  k.ctxs.all fun p => match p.2.status with
    | .free | .parked | .waiting _ => true
    | .ready | .running => false

/-- CORE_CLOCK_GATE (R447). -/
def execCoreClockGate (t c : Nat) (s : State) : Host.Outcome State Fault Refusal :=
  let k := s.core t c
  .next (if k.quiet && decide (64 ≤ k.issue.idle) then s.modCore t c fun k => { k with issue := { k.issue with gated := true } } else s)

/-- TILE_SLEEP (R447): every core is gated and the engines have been idle for 10 µs. -/
def execTileSleep (t : Nat) (s : State) : Host.Outcome State Fault Refusal :=
  let y := s.tile t
  .next (if (List.range 4).all (fun c => (y.core c).issue.gated) && decide (y.clk.idleSince + 10000 ≤ s.now) then
      s.modClk t fun k => { k with asleep := true } else s)

/-- A tile wakes (R447). -/
def State.wakeTile (s : State) (t : Nat) : State := s.modClk t fun k => { k with asleep := false, idleSince := s.now }

/-- TILE_WAKE (R447). -/
def execTileWake (t : Nat) (s : State) : Host.Outcome State Fault Refusal :=
  .next (if (s.tile t).clk.asleep then s.wakeTile t else s)

/-! ## The power steward (R448) -/

/-- POWER_STEWARD on core 3 of each front-end service tile: reason 1 hung, 2 update begun, 3 resumed (R448). -/
def State.stewardNotice (s : State) (reason : Nat) : State :=
  s.galleys.serviceTags.foldl (fun s p => match s.tileOf p.2 with
    | some t => s.notify t 3 .powerSteward (word reason)
    | none => s) s

/-- STEWARD_HEARTBEAT (R448). -/
def execStewardHeartbeat (s : State) : Host.Outcome State Fault Refusal :=
  let p := s.plat.power
  if !p.stewardRunning then .next s
  else
    let s := s.modPower fun p => { p with heartbeatAt := s.now, hung := false, updating := false }
    .next (if p.hung || p.updating then s.stewardNotice 3 else s)

/-- STEWARD_HUNG (R448): no heartbeat for 10 ms. -/
def execStewardHung (s : State) : Host.Outcome State Fault Refusal :=
  let p := s.plat.power
  .next (if p.stewardRunning && !p.hung && !p.updating && decide (p.heartbeatAt + 10000000 ≤ s.now) then
      (s.modPower fun p => { p with hung := true }).stewardNotice 1 else s)

/-- ZONE_CAP_SET (R434, R444, R445, R448): the running steward sets a zone's cap, its tiles' current clamps and the alarm threshold. -/
def execZoneCapSet (zone cap clamp threshold : Nat) (s : State) : Host.Outcome State Fault Refusal :=
  let p := s.plat.power
  if !p.stewardRunning || p.hung || p.updating then .next s
  else
    let s := s.modPower fun p => { p with
      zcaps := p.zcaps.put zone (cap % 32)
      threshold := if 80 ≤ threshold ∧ threshold ≤ 100 then threshold else p.threshold }
    let set (e : Nat × Tile) : Nat × Tile :=
      if zoneOf e.1 = zone then (e.1, { e.2 with clk := { e.2.clk with zcap := cap % 32, clamp := clamp } }) else e
    .next { s with tiles := s.tiles.map set }

/-! ## Watchdogs and load sharing (R408, R449) -/

/-- The tile is slowed: a quarter of its step under the throttle, or its step, is below a quarter of its request (R449). -/
def Tile.slowed (y : Tile) : Bool :=
  let eff4 := if y.clk.thr then y.clk.step + 1 else 4 * (y.clk.step + 1)
  decide (eff4 < y.request + 1)

/-- A neighbour that takes part in load sharing: live and not a spare (R408). -/
def State.sharer (s : State) (t dir : Nat) : Option Nat :=
  (neighbour t dir).filter fun n => (s.tile n).place.live && (s.tile n).place.working

/-- LOAD_SHARE_TICK (R408): the task count and a share of the tasks go to each neighbour, all counts as they stand at the tick. -/
def execLoadShareTick (t : Nat) (s : State) : Host.Outcome State Fault Refusal :=
  let y := s.tile t
  if !(y.place.live && y.place.chase.isSome) || decide (s.now < y.clk.sharedAt + 50000) then .next s
  else
    let s := s.modClk t fun k => { k with sharedAt := s.now }
    let mine := y.place.tasks.length
    .next ((List.range 4).foldl (fun s d =>
      match s.sharer t d with
      | some n =>
        let w := y.clk.watch.find d
        let fresh := match w with | some w => decide (s.now ≤ w.at_ + 150000) | none => false
        let k := match y.clk.tasks.find d with | some theirs => if fresh then (mine - theirs) / 5 else 0 | none => 0
        let tasks := (s.tile t).place.tasks
        let s := s.modTile t fun y => { y with place := { y.place with tasks := tasks.drop k } }
        s.post (.heartbeat n ((d + 2) % 4) mine y.slowed (tasks.take k))
      | none => s) s)

/-- HEARTBEAT_ARRIVAL (R408, R449). -/
def execHeartbeatArrival (n : Nat) (s : State) : Host.Outcome State Fault Refusal :=
  match s.take n with
  | some (.heartbeat t dir count slowed tasks, s) =>
    .next (s.modTile t fun y => { y with
      place := { y.place with tasks := y.place.tasks ++ tasks }
      clk := { y.clk with
        tasks := y.clk.tasks.put dir count
        watch := y.clk.watch.put dir { counted := 0, at_ := s.now, slowed := slowed, raised := false } } })
  | _ => .next s

/-- A watchdog's count pauses (R449). -/
def State.watchPaused (s : State) (t : Nat) (w : Watch) : Bool :=
  (s.tile t).clk.thr || (s.tile t).slowed || (w.slowed && decide (s.now < w.at_ + 1000000))

end Sys2Proof.Machine
end

