-- ==== Sys2Proof/Machine/Control.lean ====
section
/-! DEFINITION. Transfers, loops, fences, barriers, event waits, classes and lending, gangs, traps by instruction, sleep and the
system registers (R148 to R154, R162 to R184). -/

namespace Sys2Proof.Machine

/-! ## Transfers (R148 to R151) -/

/-- The target of a branch by the offset of R51. -/
def State.target (s : State) (o : Opnd) : Word := s.me.pc + wordI (2 * o.imm)

/-- The address of the next instruction in sequence. -/
def State.nextPc (s : State) (o : Opnd) : Word := s.me.pc + word (2 * o.len)

/-- A conditional branch. -/
def branch (o : Opnd) (taken : State → Bool) (s : State) : State × Act :=
  if taken s then (s, .jump (s.target o)) else (s, .done)

/-- BR (R148). -/
def execBr (o : Opnd) (s : State) : Host.Outcome State Fault Refusal :=
  transferMeaning o .none .none id (branch o fun _ => true) s

/-- CALL (R148): each member of a gang writes its own link register. -/
def execCall (o : Opnd) (s : State) : Host.Outcome State Fault Refusal :=
  transferMeaning o (.g [] [1]) (.g [] [1]) (fun s => s.wg 1 (s.nextPc o)) (fun s => (s.wg 1 (s.nextPc o), .jump (s.target o))) s

/-- BZ (R149). -/
def execBz (o : Opnd) (s : State) : Host.Outcome State Fault Refusal :=
  transferMeaning o (.g [dn o] []) .none id (branch o fun s => s.rg (dn o) == 0) s

/-- BNZ (R149). -/
def execBnz (o : Opnd) (s : State) : Host.Outcome State Fault Refusal :=
  transferMeaning o (.g [dn o] []) .none id (branch o fun s => s.rg (dn o) != 0) s

/-- BLTZ (R149). -/
def execBltz (o : Opnd) (s : State) : Host.Outcome State Fault Refusal :=
  transferMeaning o (.g [dn o] []) .none id (branch o fun s => (s.rg (dn o)).msb) s

/-- BGEZ (R149). -/
def execBgez (o : Opnd) (s : State) : Host.Outcome State Fault Refusal :=
  transferMeaning o (.g [dn o] []) .none id (branch o fun s => !(s.rg (dn o)).msb) s

/-- BEQ (R150). -/
def execBeq (o : Opnd) (s : State) : Host.Outcome State Fault Refusal :=
  transferMeaning o (.g [dn o, an o] []) .none id (branch o fun s => s.rg (dn o) == s.rg (an o)) s

/-- BNE (R150). -/
def execBne (o : Opnd) (s : State) : Host.Outcome State Fault Refusal :=
  transferMeaning o (.g [dn o, an o] []) .none id (branch o fun s => s.rg (dn o) != s.rg (an o)) s

/-- BLT (R150). -/
def execBlt (o : Opnd) (s : State) : Host.Outcome State Fault Refusal :=
  transferMeaning o (.g [dn o, an o] []) .none id (branch o fun s => (s.rg (dn o)).slt (s.rg (an o))) s

/-- BGE (R150). -/
def execBge (o : Opnd) (s : State) : Host.Outcome State Fault Refusal :=
  transferMeaning o (.g [dn o, an o] []) .none id (branch o fun s => !(s.rg (dn o)).slt (s.rg (an o))) s

/-- NOP (R151). -/
def execNop (o : Opnd) (s : State) : Host.Outcome State Fault Refusal := meaning o .none (fun s => (s, .done)) s

/-- Register a of the jump group, in ZX [5:2] (R57). -/
def jumpReg (o : Opnd) : Nat := o.xf 5 2

/-- JR (R151). -/
def execJr (o : Opnd) (s : State) : Host.Outcome State Fault Refusal :=
  transferMeaning o (.g [jumpReg o] []) .none id (fun s => (s, .jump (s.rg (jumpReg o)))) s

/-- CALLR (R151): the target is read before g1 is written. -/
def execCallr (o : Opnd) (s : State) : Host.Outcome State Fault Refusal :=
  transferMeaning o (.g [jumpReg o] [1]) (.g [] [1]) (fun s => s.wg 1 (s.nextPc o))
    (fun s => (s.wg 1 (s.nextPc o), .jump (s.rg (jumpReg o)))) s

/-- RET (R151). -/
def execRet (o : Opnd) (s : State) : Host.Outcome State Fault Refusal :=
  transferMeaning o (.g [1] []) .none id (fun s => (s, .jump (s.rg 1))) s

/-- SWITCH (R151). -/
def execSwitch (o : Opnd) (s : State) : Host.Outcome State Fault Refusal := meaning o .none (fun s => (s, .yield)) s

/-- LOOP with an offset that it may have (R153). A count of zero goes past the instruction at the end offset. -/
def loopBody (o : Opnd) (s : State) : State × Act :=
  let k := s.me
  let c := (s.rg (dn o)).toNat
  let e := s.target o
  if c = 0 then (s, .jump (e + word (2 * chainLen s.myTile.x (xAddr e))))
  else
    let beyond : Bool := match k.loops with | [] => false | l :: _ => decide (l.stop.toNat < e.toNat)
    if decide (4 ≤ k.loops.length) || beyond then (s, .trap .loopNest (word (k.loops.length + 8 * beyond.toNat)))
    else (s.modMe fun k => { k with loops := ⟨s.nextPc o, e, c⟩ :: k.loops }, .done)

/-- LOOP (R153): an offset of zero is an illegal encoding, whatever its register comes to (R52). -/
def execLoop (o : Opnd) (s : State) : Host.Outcome State Fault Refusal :=
  transferMeaning o .none .none id (fun s =>
    if o.imm = 0 then (s, .trap .illegalEncoding (Instr.loop o).info) else withUse (.g [dn o] []) (loopBody o) s) s

/-! ## Fences (R164) -/

/-- A copy channel at reset (R196, R198). -/
def Channel.reset : Channel :=
  { shadow := [], done := 1, next := 1, queue := [], pos := 0, held := false, fault := none, ending := none, dropped := [] }

/-- A copy channel of a tile. -/
def State.channel (s : State) (t h : Nat) : Channel := (s.tile t).eng.channels.get Channel.reset h

/-- Engine operations that a context has issued and that have not completed: copies, matrix commands, walks, requests to DRAM
actors, and elements appended to its write streams (R114, R164, R224). -/
def State.operationsOpen (s : State) (u : Cur) : Bool :=
  let y := s.tile u.tile
  let me : Issuer := ⟨u.core, u.ctx⟩
  (y.eng.channels.any fun p => p.2.queue.any fun r => r.by_ == me) ||
  ((y.core u.core).mq.cmds.any fun m => m.live && m.ctx == u.ctx) ||
  ((y.core u.core).walker.open_.any fun w => w.by_ == me) ||
  (y.port.outputs.any fun p => p.2.owed.any (·.by_ == me)) ||
  ((y.core u.core).streams.any fun p => match p.2.bind with | some b => b.write && b.owner == u.ctx && !b.open_.isEmpty | none => false)

/-- A fence of a kind and a scope need not wait (R128, R164): kinds 0 FENCE, 1 .l, 2 .s, 3 .t, 4 .e. -/
def State.fenceDone (s : State) (u : Cur) (kind scope : Nat) : Bool :=
  let k := s.ctx u
  if kind = 4 then !s.operationsOpen u
  else if kind = 3 then !s.outsideStores u
  else if kind = 1 then k.flights.isEmpty
  else k.flights.isEmpty && !s.outsideStores u && (decide (2 < scope) || decide (k.acks = 0))

/-- The effect of a fence. -/
def fenceBody (kind : Nat) (o : Opnd) (s : State) : State × Act :=
  if s.fenceDone s.cur kind (o.xf 5 3) then (s, .done) else (s, .wait (.fence kind (o.xf 5 3)))

/-- FENCE (R164). -/
def execFence (o : Opnd) (s : State) : Host.Outcome State Fault Refusal := meaning o .none (fenceBody 0 o) s

/-- FENCE.L (R164). -/
def execFenceL (o : Opnd) (s : State) : Host.Outcome State Fault Refusal := meaning o .none (fenceBody 1 o) s

/-- FENCE.S (R164). -/
def execFenceS (o : Opnd) (s : State) : Host.Outcome State Fault Refusal := meaning o .none (fenceBody 2 o) s

/-- FENCE.T (R164). -/
def execFenceT (o : Opnd) (s : State) : Host.Outcome State Fault Refusal := meaning o .none (fenceBody 3 o) s

/-- FENCE.E (R164). -/
def execFenceE (o : Opnd) (s : State) : Host.Outcome State Fault Refusal := meaning o .none (fenceBody 4 o) s

/-! ## Order among waiting contexts -/

/-- Insert by key, rising; equal keys keep their order. -/
def insertBy {α : Type} (key : α → Nat) (a : α) : List α → List α
  | [] => [a]
  | b :: bs => if key a ≤ key b then a :: b :: bs else b :: insertBy key a bs

/-- Sort by key, rising. -/
def sortBy {α : Type} (key : α → Nat) : List α → List α
  | [] => []
  | a :: as => insertBy key a (sortBy key as)

/-- The contexts of a tile that wait on something, the longest-waiting first. -/
def State.waitingOn (s : State) (t : Nat) (p : Cur → Wait → Bool) : List Cur :=
  sortBy (fun u => (s.ctx u).since)
    ((s.ctxList t).filter fun u => match (s.ctx u).waits with | some w => p u w | none => false)

/-! ## Barriers (R165, R166) -/

/-- An idle barrier. -/
def Barrier.idle : Barrier := { open_ := false, latched := 0, arrived := 0 }

/-- A barrier of a tile. -/
def State.barrier (s : State) (t n : Nat) : Barrier := (s.tile t).eng.barriers.get Barrier.idle n

/-- The state with a barrier replaced. -/
def State.setBarrier (s : State) (t n : Nat) (b : Barrier) : State := s.modEng t fun e => { e with barriers := e.barriers.put n b }

/-- A context that executes BAR, by the rows of R165: the wait it takes up, the barrier, and whether it completes. -/
def Barrier.row (b : Barrier) (n c : Nat) (mask : BitVec 4) : Wait × Barrier × Bool :=
  let bit : BitVec 4 := 1#4 <<< c
  if !mask.getLsbD c then (.bar n 0 true, b, false)
  else if !b.open_ then (.bar n 0 false, { open_ := true, latched := mask, arrived := bit }, mask == bit)
  else if b.latched.getLsbD c && !b.arrived.getLsbD c then
    let a := b.arrived ||| bit
    (.bar n 0 false, { b with arrived := a }, a == b.latched)
  else (.bar n mask false, b, false)

/-- A barrier completes: arrived contexts and observers complete their BAR, and the barrier becomes idle. -/
def State.releaseBar (s : State) (t n : Nat) : State :=
  let us := s.waitingOn t fun _ w => match w with | .bar m mask obs => m == n && (obs || mask == 0) | _ => false
  (us.foldl (fun s u => s.completeWait u) s).setBarrier t n Barrier.idle

/-- The contexts queued at a barrier, with their masks, in the order in which they began to wait. -/
def State.barQueue (s : State) (t n : Nat) : List Cur :=
  s.waitingOn t fun _ w => match w with | .bar m mask obs => m == n && !obs && mask != 0 | _ => false

/-- The mask that a queued context waits with. -/
def State.barMask (s : State) (u : Cur) : BitVec 4 :=
  match (s.ctx u).waits with | some (.bar _ mask _) => mask | _ => 0

/-- The queued contexts take part, in order, in the next generations (R165). -/
def State.requeue (t n : Nat) : Nat → List Cur → State → State
  | 0, _, s => s
  | _, [], s => s
  | fuel + 1, u :: us, s =>
    let r := (s.barrier t n).row n u.core (s.barMask u)
    let s := (s.setBarrier t n r.2.1).modCtx u fun k => { k with status := .waiting r.1 }
    if r.2.2 then
      let s := s.releaseBar t n
      State.requeue t n fuel (s.barQueue t n) s
    else State.requeue t n fuel us s

/-- A barrier completes, and the queued contexts take part. -/
def State.completeBar (s : State) (t n : Nat) : State :=
  let s := s.releaseBar t n
  State.requeue t n 4096 (s.barQueue t n) s

/-- The effect of BAR. -/
def barBody (o : Opnd) (s : State) : State × Act :=
  let u := s.cur
  let n := o.xf 9 7
  let mask := BitVec.ofNat 4 (o.xf 6 3)
  let r := (s.barrier u.tile n).row n u.core mask
  let s := s.setBarrier u.tile n r.2.1
  if r.2.2 && mask == 1#4 <<< u.core then (s.completeBar u.tile n, .done)
  else if r.2.2 then ((s.holdOn u r.1).completeBar u.tile n, .over)
  else (s, .wait r.1)

/-- BAR (R165): each member of a gang arrives for its own core. -/
def execBar (o : Opnd) (s : State) : Host.Outcome State Fault Refusal :=
  memberwise o (barBody o) s

/-! ## Event waits (R168) -/

/-- The oldest readable record goes to registers d and d + 1 of a context; g0 discards it. -/
def State.takeRecord (s : State) (u : Cur) (d : Nat) : State :=
  match (s.core u.tile u.core).evq.ready with
  | [] => s
  | r :: rs =>
    let s := s.modCore u.tile u.core fun k => { k with evq := { k.evq with ready := rs } }
    if d = 0 then s else s.modCtx u fun k => (k.setG d r.bits.1).setG (d + 1) r.bits.2

/-- STREAM_DIRECTION where a register of WAITEV or POLLEV is a bound stream register (R163). -/
def State.eventTrap (s : State) (d : Nat) : Option Act :=
  (([d, d + 1].filter fun n => d != 0 && (s.myCore.binding s.cur.ctx false n).isSome).head?).map fun n =>
    .trap .streamDirection (streamInfo false n (match s.myCore.binding s.cur.ctx false n with
      | some b => if b.write then 0 else 128
      | none => 0))

/-- Registers of an event wait. -/
def useEvent (o : Opnd) : Use := .g [] (if dn o = 0 then [] else [dn o, dn o + 1])

/-- An event wait under its registers: a bound one traps whatever its stream holds, and one in flight stalls (R137, R163). -/
def eventOp (o : Opnd) (body : State → State × Act) (s : State) : State × Act :=
  match s.eventTrap (dn o) with
  | some a => (s, a)
  | none => withUse (useEvent o) body s

/-- WAITEV (R168): a context that waits is served in the order of waiting when a record comes. -/
def execWaitev (o : Opnd) (s : State) : Host.Outcome State Fault Refusal :=
  meaning o .none (eventOp o fun s =>
    if s.myCore.evq.ready.isEmpty then (s, .wait .event) else (s.takeRecord s.cur (dn o), .done)) s

/-- POLLEV (R168). -/
def execPollev (o : Opnd) (s : State) : Host.Outcome State Fault Refusal :=
  meaning o .none (eventOp o fun s =>
    if s.myCore.evq.ready.isEmpty then
      (if dn o = 0 then s else s.modMe fun k => (k.setG (dn o) 0).setG (dn o + 1) 0, .done)
    else (s.takeRecord s.cur (dn o), .done)) s

/-- Register d of the WAITEV at a context's pc. -/
def State.eventReg (s : State) (u : Cur) : Nat :=
  match decode (fetchWords (s.tile u.tile).x 5 (xAddr (s.ctx u).pc)) with
  | .ok (.waitev o, _) => dn o
  | _ => 0

/-- Late records that may become readable do, and the contexts of a core that wait in WAITEV take the readable ones, in
the order in which they began to wait. -/
def State.serveEvents (s : State) (t c : Nat) : State :=
  let s := s.settleLate t c
  let us := s.waitingOn t fun u w => decide (u.core = c) && w == .event
  us.foldl (fun s u => if (s.core t c).evq.ready.isEmpty then s else (s.takeRecord u (s.eventReg u)).completeWait u) s

/-! ## Classes and lending (R169, R170, R258) -/

/-- A waiting context lends its class to the contexts of a core. -/
def State.lends (s : State) (v : Cur) (core : Nat) : Bool :=
  match (s.ctx v).waits with
  | some (.bar n _ obs) =>
    let b := s.barrier v.tile n
    !obs && b.open_ && b.latched.getLsbD core && !b.arrived.getLsbD core
  | some w =>
    (List.range 8).any fun q => w.onQuire q && (s.quire v.tile q).takes core && decide ((s.quire v.tile q).bank core = 0)
  | none => false

/-- The class that a context has of itself: 3 in a trap (R170). -/
def Ctx.ownClass (k : Ctx) : Nat := if k.trap.ts.intrap then 3 else k.sys.cls.toNat

/-- One round of lending over the contexts of a tile, with the classes they have so far. -/
def State.lendRound (s : State) (l : List (Cur × Nat)) : List (Cur × Nat) :=
  l.map fun p => (p.1, l.foldl (fun m q => if q.1 != p.1 && s.lends q.1 p.1.core then max m q.2 else m) p.2)

/-- The effective classes of a tile's contexts. -/
def State.classes (s : State) (t : Nat) : List (Cur × Nat) :=
  let l := (s.ctxList t).map fun u => (u, (s.ctx u).ownClass)
  let lenders := l.filter fun p => (s.ctx p.1).waits.isSome
  Nat.rec l (fun _ l => s.lendRound l) lenders.length

/-- The effective class of a context (R170); a member of a gang issues under the leader's (R172). -/
def State.effClass (s : State) (u : Cur) : Nat :=
  let u := match (s.tile u.tile).gangOf u.core u.ctx with
    | some g => (match g.members.head? with | some m => ⟨u.tile, m.1, m.2⟩ | none => u)
    | none => u
  ((s.classes u.tile).find? (·.1 == u)).elim 0 Prod.snd

/-- PRIO (R169). -/
def execPrio (o : Opnd) (s : State) : Host.Outcome State Fault Refusal :=
  meaning o .none (fun s =>
    let c := o.imm.toNat
    let cap := s.me.sys.cap.toNat
    if 3 < c ∨ cap < c then (s, .trap .priorityRange (word (c + 256 * cap)))
    else (s.modMe fun k => { k with sys := { k.sys with cls := BitVec.ofNat 2 c } }, .done)) s

/-! ## Gangs (R171 to R174) -/

/-- The cores that a GANG form of a core needs. -/
def gangCores (four : Bool) (c : Nat) : List Nat := if four then [0, 1, 2, 3] else [min c (c ^^^ 1), max c (c ^^^ 1)]

/-- The context of a core that waits in GANG, and its form. -/
def State.gangWaiter (s : State) (t c : Nat) : Option (Nat × Bool) :=
  ((s.waitingOn t fun u w => decide (u.core = c) && (w == .gang false || w == .gang true)).head?).bind fun u =>
    match (s.ctx u).waits with | some (.gang four) => some (u.ctx, four) | _ => none

/-- A core has a context in a formed gang. -/
def Tile.inGang (y : Tile) (c : Nat) : Bool := y.eng.gangs.any fun g => g.members.any (·.1 == c)

/-- The effect of GANG. -/
def gangBody (four : Bool) (o : Opnd) (s : State) : State × Act :=
  let u := s.cur
  let t := u.tile
  if ((s.tile t).gangOf u.core u.ctx).isSome then
    ((s.breakGang u 0 1).raise u .gangBreak (gangInfo u.core 0 1) o.len, .over)
  else if (s.tile t).inGang u.core || (s.gangWaiter t u.core).isSome then (s, .wait .gangNext)
  else
    let need := gangCores four u.core
    let other := need.find? fun c => c != u.core && (match s.gangWaiter t c with
      | some (_, f) => f != four && (gangCores f c).contains c
      | none => false)
    match other with
    | some c => (s, .trap .gangBreak (gangInfo c 0 3))
    | none =>
      let members := need.filterMap fun c => if c = u.core then some (c, u.ctx) else (s.gangWaiter t c).map fun p => (c, p.1)
      if members.length < need.length then (s, .wait (.gang four))
      else
        let s := members.foldl (fun (s : State) (m : Nat × Nat) => s.completeWait ⟨t, m.1, m.2⟩) (s.holdOn u (.gang four))
        let s := match members with
          | [] => s
          | l :: fs => fs.foldl (fun (s : State) (m : Nat × Nat) => s.follow ⟨t, l.1, l.2⟩ ⟨t, m.1, m.2⟩) s
        (s.modEng t fun e => { e with gangs := e.gangs ++ [⟨members⟩] }, .over)

/-- GANG.2 (R171). -/
def execGang2 (o : Opnd) (s : State) : Host.Outcome State Fault Refusal :=
  .next (execOne s.cur o.len o.mark .none (gangBody false o) s).1

/-- GANG.4 (R171). -/
def execGang4 (o : Opnd) (s : State) : Host.Outcome State Fault Refusal :=
  .next (execOne s.cur o.len o.mark .none (gangBody true o) s).1

/-- UNGANG (R173): every member continues on its own at the next instruction. -/
def execUngang (o : Opnd) (s : State) : Host.Outcome State Fault Refusal :=
  let u := s.cur
  let go (s : State) (v : Cur) : State := (execOne v o.len o.mark .none (fun s => (s, .done)) s).1
  match (s.tile u.tile).gangOf u.core u.ctx with
  | none => .next (go s u)
  | some g =>
    let s := s.modTile u.tile (·.dropGang g)
    .next ((g.members.foldl (fun s m => go s ⟨u.tile, m.1, m.2⟩) s).setCur u)

/-! ## Traps by instruction, sleep and frequency -/

/-- TRAP (R194). -/
def execTrap (o : Opnd) (s : State) : Host.Outcome State Fault Refusal :=
  meaning o .none (fun s => (s, .trap .trapInsn (word (o.xf 7 0)))) s

/-- BREAK (R194). -/
def execBrk (o : Opnd) (s : State) : Host.Outcome State Fault Refusal :=
  meaning o .none (fun s => (s, .trap .break (word (o.xf 7 0)))) s

/-- A SLEEP with a deadline ends (R175). -/
def State.sleepOver (s : State) (u : Cur) (deadline : Option Nat) : Bool :=
  (match deadline with | some d => decide (d ≤ s.rtime u.tile) | none => false) || !(s.core u.tile u.core).evq.ready.isEmpty

/-- SLEEP (R175). -/
def execSleep (o : Opnd) (s : State) : Host.Outcome State Fault Refusal :=
  meaning o (.g [an o] []) (fun s =>
    let deadline := if an o = 0 then none else some (s.rg (an o)).toNat
    if s.sleepOver s.cur deadline then (s, .done) else (s.consume s.cur (.g [an o] []), .wait (.sleep deadline))) s

/-- SLEEP_WAKE (R175). -/
def execSleepWake (t c x : Nat) (s : State) : Host.Outcome State Fault Refusal :=
  let u : Cur := ⟨t, c, x⟩
  match (s.ctx u).waits with
  | some (.sleep d) => .next (if s.sleepOver u d then s.completeWait u else s)
  | _ => .next s

/-- FREQREQ (R176). -/
def execFreqreq (o : Opnd) (s : State) : Host.Outcome State Fault Refusal :=
  meaning o .none (fun s => (s.modMyCore fun k => { k with freqReq := o.imm.toNat }, .done)) s

/-! ## System registers (R178 to R184) -/

/-- `%tstate` as a word, with the gang field (R180). -/
def TState.asWord (t : TState) (gang : Nat) : Word :=
  word (t.priv.toNat + 2 * t.ppriv.toNat + 4 * t.te.toNat + 8 * t.intrap.toNat + 16 * t.pclass.toNat + 64 * t.skip.toNat
    + 128 * t.nr.toNat + 256 * t.len.toNat + 2048 * t.notice.toNat + 4096 * t.alloc.toNat + 8192 * gang + 32768 * t.pd.toNat)

/-- `%tstate` as a write at supervisor privilege leaves it: priv and gang are read-only (R180). -/
def TState.write (t : TState) (v : Word) : TState :=
  { priv := t.priv, ppriv := v.getLsbD 1, te := v.getLsbD 2, intrap := v.getLsbD 3, pclass := BitVec.ofNat 2 (bits v 4 2)
    skip := v.getLsbD 6, nr := v.getLsbD 7, len := BitVec.ofNat 3 (bits v 8 3), notice := v.getLsbD 11, alloc := v.getLsbD 12
    pd := v.getLsbD 15 }

/-- `%whoami` (R184). -/
def whoami (u : Cur) : Word := word (u.core + 4 * u.ctx + 64 * (roleTag u.tile).toNat)

/-- `%cpdonen` (R198). -/
def Channel.progress (c : Channel) : Word := word (c.done.toNat + 2 ^ 32 * c.next.toNat)

/-- The value of a system register of a context (R179). -/
def State.readSys (s : State) (u : Cur) (n : Nat) : Word :=
  let k := s.ctx u
  let core := s.core u.tile u.core
  let y := s.tile u.tile
  if n = 0 then k.trap.cause.setWidth 64
  else if n = 1 then k.trap.epc.setWidth 64
  else if n = 2 then k.trap.einfo
  else if n = 3 then k.trap.ts.asWord (y.gangCode u.core u.ctx)
  else if n = 4 then core.tvec.setWidth 64
  else if n < 9 then k.trap.ksave.get 0 (n - 5)
  else if n = 9 then core.ktimer
  else if n = 10 then core.npend
  else if n = 0x10 then word (k.sys.cls.toNat + 4 * k.sys.cap.toNat + 16 * s.effClass u)
  else if n = 0x11 then k.sys.hbudget.setWidth 64
  else if n = 0x12 then k.sys.bkey.setWidth 64
  else if n = 0x13 then k.sys.ilock
  else if n = 0x14 then k.sys.fswitch
  else if n = 0x18 then k.sys.fflags.setWidth 64
  else if n = 0x19 then k.sys.fmode.setWidth 64
  else if n = 0x1A then k.sys.mstat
  else if n = 0x20 then
    word (core.evq.ready.length + 64 * core.evq.held + 4096 * (s.waitingOn u.tile fun v w => decide (v.core = u.core) && w == .event).length)
  else if n = 0x21 then word (s.rtime u.tile)
  else if n = 0x22 then core.cyc
  else if n = 0x23 then y.freq
  else if n = 0x24 then y.clk.ftrace
  else if n = 0x25 then whoami u
  else if n < 0x50 then core.wdesc.get 0 (n - 0x40)
  else if n < 0x88 then (s.channel u.tile (n - 0x80)).progress
  else (s.channel u.tile ((n - 0x100) / 16)).shadow.get 0 (n % 16)

/-- A register that user privilege may read (R179). -/
def userReads (n : Nat) : Bool := decide (0x10 ≤ n)

/-- A register with a field that a privilege may write (R178, R179). -/
def mayWrite (super : Bool) (n : Nat) : Bool :=
  (decide (0x18 ≤ n) && decide (n ≤ 0x1A)) || (decide (0x40 ≤ n) && decide (n ≤ 0x4F)) ||
  (super && (decide (n ≤ 0xA) || (decide (0x10 ≤ n) && decide (n ≤ 0x14)) || decide (n = 0x23)))

/-- `%ktimer` written (R181). -/
def Core.writeKtimer (k : Core) (v : Word) : Core := { k with ktimer := v }

/-- Bits of `%npend` cleared by ones written (R181). -/
def Core.clearNpend (k : Core) (v : Word) : Core :=
  let clear := v &&& word (2 ^ 63 + 2 ^ 19 - 1)
  { k with npend := k.npend &&& ~~~clear, ninfo := k.ninfo.filter fun p => !clear.getLsbD p.1 }

/-- `%fmode` written: rounding modes 1 to 4 only (R89). -/
def CtxRegs.writeFmode (k : CtxRegs) (v : Word) : CtxRegs :=
  let r := bits v 0 3
  if 1 ≤ r ∧ r ≤ 4 then { k with fmode := BitVec.ofNat 3 r } else k

/-- The state with a system register of a context written, at a privilege that may write it (R178 to R183). -/
def State.writeSys (s : State) (u : Cur) (n : Nat) (v : Word) : State :=
  let trap (f : TrapRegs → TrapRegs) : State := s.modCtx u fun k => { k with trap := f k.trap }
  let sys (f : CtxRegs → CtxRegs) : State := s.modCtx u fun k => { k with sys := f k.sys }
  let core (f : Core → Core) : State := s.modCore u.tile u.core f
  if n = 0 then trap fun r => { r with cause := v.setWidth 6 }
  else if n = 1 then trap fun r => { r with epc := v.setWidth 17 }
  else if n = 2 then trap fun r => { r with einfo := v }
  else if n = 3 then trap fun r => { r with ts := r.ts.write v }
  else if n = 4 then core fun k => { k with tvec := (v &&& ~~~1).setWidth 17 }
  else if n < 9 then trap fun r => { r with ksave := r.ksave.set 0 (n - 5) v }
  else if n = 9 then core (·.writeKtimer v)
  else if n = 10 then core (·.clearNpend v)
  else if n = 0x10 then sys fun r => { r with cls := v.setWidth 2, cap := (v >>> 2).setWidth 2 }
  else if n = 0x11 then sys fun r => { r with hbudget := v.setWidth 32 }
  else if n = 0x12 then sys fun r => { r with bkey := v.setWidth 56 }
  else if n = 0x13 then sys fun r => { r with ilock := v }
  else if n = 0x14 then sys fun r => { r with fswitch := v }
  else if n = 0x18 then sys fun r => { r with fflags := v.setWidth 7 }
  else if n = 0x19 then sys (·.writeFmode v)
  else if n = 0x1A then sys fun r => { r with mstat := v &&& 0x77 }
  else if n = 0x23 then s.writeFreq u.tile v
  else if 0x40 ≤ n ∧ n < 0x50 then core fun k => { k with wdesc := k.wdesc.set 0 (n - 0x40) v }
  else s

/-- MFS (R178). -/
def execMfs (o : Opnd) (s : State) : Host.Outcome State Fault Refusal :=
  meaning o .none (privileged (.mfs o) (fun s => userReads o.imm.toNat || s.supervisor) (.g [] [dn o])
    (compute o fun s => s.readSys s.cur o.imm.toNat)) s

/-- MTS (R178). -/
def execMts (o : Opnd) (s : State) : Host.Outcome State Fault Refusal :=
  meaning o .none (privileged (.mts o) (fun s => mayWrite s.supervisor o.imm.toNat) (.g [dn o] [])
    fun s => (s.writeSys s.cur o.imm.toNat (s.rg (dn o)), .done)) s

/-- RDTIME (R177). -/
def execRdtime (o : Opnd) (s : State) : Host.Outcome State Fault Refusal :=
  meaning o (.g [] [dn o]) (compute o fun s => s.readSys s.cur 0x21) s

/-- RDCYC (R177). -/
def execRdcyc (o : Opnd) (s : State) : Host.Outcome State Fault Refusal :=
  meaning o (.g [] [dn o]) (compute o fun s => s.readSys s.cur 0x22) s

/-- KTIMER_WRITE (R181): what MTS to `%ktimer` does. -/
def execKtimerWrite (t c x : Nat) (value : Word) (s : State) : Host.Outcome State Fault Refusal :=
  .next (s.writeSys ⟨t, c, x⟩ 9 value)

/-- NPEND_CLEAR (R181): what MTS to `%npend` does. -/
def execNpendClear (t c x : Nat) (value : Word) (s : State) : Host.Outcome State Fault Refusal :=
  .next (s.writeSys ⟨t, c, x⟩ 10 value)

/-- FREQ_LOCK_WRITE (R440): what MTS to `%freq` does. -/
def execFreqLockWrite (t c x : Nat) (value : Word) (s : State) : Host.Outcome State Fault Refusal :=
  .next (s.writeSys ⟨t, c, x⟩ 0x23 value)

/-- FMODE_WRITE (R89): what MTS to `%fmode` does. -/
def execFmodeWrite (t c x : Nat) (value : Word) (s : State) : Host.Outcome State Fault Refusal :=
  .next (s.writeSys ⟨t, c, x⟩ 0x19 value)

end Sys2Proof.Machine
end

