-- ==== Sys2Proof/Machine/Copy.lean ====
section
/-! DEFINITION. Copy channels (R196 to R215): launch and waits, rounds, faults and completion. -/

namespace Sys2Proof.Machine

/-- The state with a copy channel changed. -/
def State.modChannel (s : State) (t h : Nat) (f : Channel → Channel) : State :=
  s.modEng t fun e => { e with channels := e.channels.put h (f (e.channels.get Channel.reset h)) }

/-- The channel that an instruction acts on: in a gang, (c + m) mod 8 for the member m (R199). -/
def State.channelOf (s : State) (c : Nat) : Nat :=
  match s.myTile.gangOf s.cur.core s.cur.ctx with
  | some g => (match g.members.head? with | some l => (c + (s.cur.core - l.1)) % 8 | none => c)
  | none => c

/-! ## The sides of a transfer (R197, R206) -/

/-- One side of a transfer. -/
structure Side where
  addr : Nat
  space : Space
  core : Nat
  steps : List Int
  fmt : Nat
  packed : Bool

/-- Bytes that a side's element takes; an s4 side moves pairs. -/
def Side.size (d : Side) : Nat := fmtBytes d.fmt

/-- What the shadow registers say. -/
structure Plan where
  src : Side
  dst : Side
  lens : List Nat
  sscale : Int
  dscale : Int
  round : Nat
  sat : Bool
  ev : Bool
  quoin : Bool
  qtag : Bool
  qnum : Nat

/-- A signed shadow register. -/
def shadowInt (m : Sparse Word) (n : Nat) : Int := (m.get 0 n).toInt

/-- A side of the shadow registers: address register `r`, steps from `st`. -/
def sideOf (m : Sparse Word) (r st fmt : Nat) (packed : Bool) : Side :=
  let w := m.get 0 r
  { addr := bits w 0 57, space := spaceOf (bits w 57 3), core := bits w 60 2
    steps := [shadowInt m st, shadowInt m (st + 1), shadowInt m (st + 2), shadowInt m (st + 3)], fmt := fmt, packed := packed }

/-- The transfer that the shadow registers describe; the lengths of an s4 side count pairs (R206). -/
def planOf (m : Sparse Word) : Plan :=
  let conv := m.get 0 14
  let ctl := m.get 0 15
  let sf := bits conv 0 4
  let l0 := bits (m.get 0 2) 0 32
  { src := sideOf m 0 6 sf (conv.getLsbD 26), dst := sideOf m 1 10 (bits conv 4 4) (conv.getLsbD 27)
    lens := [if sf = 13 then l0 / 2 else l0, dimLen 1 (bits (m.get 0 3) 0 32), dimLen 2 (bits (m.get 0 4) 0 32),
      dimLen 3 (bits (m.get 0 5) 0 32)]
    sscale := (BitVec.ofNat 7 (bits conv 8 7)).toInt, dscale := (BitVec.ofNat 7 (bits conv 15 7)).toInt
    round := bits conv 22 3, sat := conv.getLsbD 25, ev := ctl.getLsbD 0, quoin := ctl.getLsbD 1, qtag := ctl.getLsbD 2
    qnum := bits ctl 3 3 }

/-- The elements of a transfer. -/
def Plan.total (p : Plan) : Nat := p.lens.foldl (· * ·) 1

/-- The address of element `n` of a side; a packed side's is that of its group (R206). -/
def Side.at_ (d : Side) (lens : List Nat) (n : Nat) : Int :=
  if d.packed then (d.addr + n / 4 * 3 : Nat) else (d.addr : Int) + dotSteps (indexOf lens n) d.steps

/-- The bounding range of a side that has elements: lowest byte and number of bytes (R201, R209). -/
def Side.range (d : Side) (lens : List Nat) (total : Nat) : Int × Nat :=
  if d.packed then (d.addr, (total + 3) / 4 * 3)
  else let r := spanOf lens d.steps; ((d.addr : Int) + r.1, (r.2 - r.1).toNat + d.size)

/-- Bytes that elements `n0` to `n1 − 1` of a side take. -/
def Side.bytes (d : Side) (n0 n1 : Nat) : Nat :=
  if n1 ≤ n0 then 0 else if d.packed then ((n1 - 1) / 4 - n0 / 4 + 1) * 3 else (n1 - n0) * d.size

/-! ## Checks of CPGO (R201) -/

/-- A step lies in its range. -/
def stepOk (v : Int) : Bool := decide (-(2 ^ 47 : Int) ≤ v) && decide (v < 2 ^ 47)

/-- The shadow registers that fail, in ascending number (R201 step 1). -/
def badShadow (m : Sparse Word) (tagOk : Nat → Bool) : List Nat :=
  let p := planOf m
  let conv := m.get 0 14
  let ctl := m.get 0 15
  let badAddr (r : Nat) : Bool :=
    let w := m.get 0 r
    let sp := bits w 57 3
    decide (6 ≤ sp) || (decide (bits w 60 2 ≠ 0) && (sp == 0 || sp == 4)) || bits w 62 2 != 0
  let taper (f : Nat) : Bool := f == 3 || f == 4
  let sf := p.src.fmt
  let df := p.dst.fmt
  let badConv : Bool :=
    !cvtProvided sf df || (sf == 13) != (df == 13) || (sf == 13 && bits (m.get 0 2) 0 32 % 2 == 1) ||
    (p.sscale != 0 && !taper sf) || (p.dscale != 0 && !taper df) || decide (5 ≤ p.round) ||
    (p.src.packed && !(sf == 4 && p.src.space == .d)) || (p.dst.packed && !(df == 4 && p.dst.space == .d)) || bits conv 28 36 != 0
  (List.range 16).filter fun r =>
    if r < 2 then badAddr r
    else if r < 6 then bits (m.get 0 r) 32 32 != 0
    else if r < 10 then !p.src.packed && !stepOk (shadowInt m r)
    else if r < 14 then !p.dst.packed && !stepOk (shadowInt m r)
    else if r = 14 then badConv
    else (p.qtag && !tagOk p.qnum) || bits ctl 6 58 != 0

/-- The fault of a range that an engine operation names: R102 to R104, with the lowest byte checked first (R101, R103). -/
def engineRange (sp : Space) (lo : Int) (n : Nat) (size : Nat) (write : Bool) : Option (Cause × Word) :=
  if lo < 0 then some (.spaceRange, infoM (lowBits 57 lo) sp.code size write)
  else (rangeFault sp lo.toNat n).map fun c => (c, infoM lo.toNat sp.code size write)

/-- The first element address, in visiting order, that is not aligned to the element's size. -/
def misaligned (addr : Nat) (size : Nat) : List Nat → List Int → Option Int
  | lens, steps =>
    if addr % size ≠ 0 then some addr
    else ((List.zip lens steps).find? fun p => decide (1 < p.1) && p.2 % (size : Int) != 0).map fun p => (addr : Int) + p.2

/-- The memory fault of a side (R201 step 2). -/
def Side.fault (d : Side) (lens : List Nat) (total : Nat) (write : Bool) : Option (Cause × Word) :=
  let size := if d.packed then 0 else sizeCode d.size
  let r := d.range lens total
  if d.space == .c || d.space == .x || (d.space == .w && !write) then
    some (.bufferEngine, infoM (if total = 0 then d.addr else lowBits 57 r.1) d.space.code size write)
  else if total = 0 then none
  else match engineRange d.space r.1 r.2 size write with
    | some f => some f
    | none =>
      if d.packed then none
      else (misaligned d.addr d.size lens d.steps).map fun a => (.align, infoM (lowBits 57 a) d.space.code size write)

/-- The bounding ranges of two sides share a byte (R209). -/
def Plan.overlap (p : Plan) : Bool :=
  let a := p.src.range p.lens p.total
  let b := p.dst.range p.lens p.total
  decide (p.total ≠ 0) && p.src.space == p.dst.space && (p.src.space == .t || p.src.space == .d || p.src.core == p.dst.core) &&
  decide (a.1 < b.1 + b.2) && decide (b.1 < a.1 + a.2)

/-- The quoin entries of a side (R211). -/
def Side.quoins (d : Side) (lens : List Nat) (total : Nat) (dst : Bool) (issuer engine chan : Nat) (ident : BitVec 32) : List Quoin :=
  if d.space == .d || total == 0 then []
  else
    let r := d.range lens total
    [{ space := d.space, core := d.core, base := r.1.toNat, len := r.2, dst := dst, issuer := issuer, engine := engine, chan := chan
       ident := ident }]

/-- CPSET (R200): no check. -/
def execCpset (o : Opnd) (s : State) : Host.Outcome State Fault Refusal :=
  meaning o (.g [an o] []) (fun s =>
    (s.modChannel s.cur.tile (s.channelOf (dn o)) fun k => { k with shadow := k.shadow.set 0 o.fx.toNat (s.rg (an o)) }, .done)) s

/-- CPGO (R201): the context's earlier accesses come before the operation's (R123). -/
def execCpgo (o : Opnd) (s : State) : Host.Outcome State Fault Refusal :=
  meaning o (.g [] [dn o]) (fun s =>
    let t := s.cur.tile
    let h := s.channelOf (aNum o)
    let k := s.channel t h
    let m := k.shadow
    let bad (r : Nat) : Act := .trap .copyDescriptor (infoE 1 h r k.next.toNat)
    match (badShadow m fun q => (s.quire t q).takes (4 + h)).head? with
    | some r => (s, bad r)
    | none =>
      let p := planOf m
      match p.src.fault p.lens p.total false <|> p.dst.fault p.lens p.total true with
      | some (c, i) => (s, .trap c i)
      | none =>
        let quoins := if p.quoin then
            p.src.quoins p.lens p.total false s.cur.core 1 h k.next ++ p.dst.quoins p.lens p.total true s.cur.core 1 h k.next
          else []
        if p.overlap then (s, bad 1)
        else if s.awaitsOutside s.cur then (s, .wait (.fence 2 3))
        else if 8 ≤ k.queue.length then (s, .wait (.copyQueue h))
        else if p.ev && !s.myCore.evq.hasRoom then (s, .trap .eventOverflow (word (1 + 256 * h)))
        else if s.myTile.freeQuoins.length < quoins.length then (s, .stall)
        else
          let tr : Transfer :=
            { ident := k.next, snap := m, rnd := s.me.sys.fmode, bkey := s.myKey, by_ := ⟨s.cur.core, s.cur.ctx⟩, flags := 0
              voided := false, cancel := false, bytes := 0 }
          let s := if p.ev then s.reserveEvent t s.cur.core else s
          let s := s.addQuoins t quoins
          let s := if p.qtag then s.modQuire t p.qnum fun q => { q with tagged := q.tagged + 1 } else s
          let s := s.modChannel t h fun k => { k with queue := k.queue ++ [tr], next := k.next + 1 }
          compute o (fun _ => tr.ident.setWidth 64) s) s

/-- CPDONE (R203). -/
def execCpdone (o : Opnd) (s : State) : Host.Outcome State Fault Refusal :=
  meaning o (.g [] [dn o]) (compute o fun s => (s.channel s.cur.tile (s.channelOf (aNum o))).done.setWidth 64) s

/-- An identifier is outstanding on a channel or a queue (R202). -/
def outstanding (done next n : BitVec 32) : Bool := !below n done && decide ((n - done).toNat < (next - done).toNat)

/-- CPWAIT (R204). -/
def execCpwait (o : Opnd) (s : State) : Host.Outcome State Fault Refusal :=
  meaning o (.g [dn o] []) (fun s =>
    let h := s.channelOf (aNum o)
    let k := s.channel s.cur.tile h
    let n : BitVec 32 := (s.rg (dn o)).setWidth 32
    if outstanding k.done k.next n then (s, .wait (.copyDone h n)) else (s, .done)) s

/-! ## Faults of an engine's accesses (R106, R364) -/

/-- The words of a fault report (R364): 32 bytes. -/
def faultReport (va : Nat) (cause : Cause) (engine chan core ident gen : Nat) : List Word :=
  [word va, word (cause.code + 256 * engine + 2 ^ 16 * chan + 2 ^ 24 * core + 2 ^ 32 * (ident % 2 ^ 32)), word gen, 0]

/-- A withheld access: the node holds it and reports it to the micro-kernel (R364, R371). -/
def State.withhold (s : State) (t engine chan core : Nat) (ident : BitVec 32) (va : Nat) (cause : Cause) : State :=
  let gen : BitVec 32 := match s.rootGen t with | .ok g => g | .error _ => 0
  let s := s.modXnode t fun x => { x with held := x.held ++ [⟨engine, chan, core, ident, va, cause, gen⟩] }
  s.modTile t fun y => { y with place := { y.place with
    tasks := y.place.tasks ++ [faultReport va cause engine chan core ident.toNat gen.toNat] } }

/-- The causes that withhold an access rather than end its operation (R364). -/
def Cause.withholds : Cause → Bool
  | .xlateMiss | .xlatePerm | .xlateStale => true
  | _ => false

/-- Where an engine's element failed: its address and the cause. -/
structure EngFault where
  va : Nat
  cause : Cause

/-- What keeps an engine's reads from their values. -/
inductive EngHalt where
  | fault (f : EngFault)
  /-- bytes of host or peer memory have not all come (R369) -/
  | pending

/-- An engine reads `n` bytes of a space; D goes through the translation of `holder`. -/
def State.engineRead (s : State) (t core : Nat) (sp : Space) (bkey : BitVec 56) (holder a n : Nat) : State × Except EngHalt Nat :=
  match sp with
  | .d => match s.engRead t holder a n with
    | (s, .value v) => (s, .ok v)
    | (s, .fault c) => (s, .error (.fault ⟨a, c⟩))
    | (s, .pending) => (s, .error .pending)
  | .t | .a | .c | .w | .x =>
    match s.badLocal t core sp bkey a n with
    | some u => (s, .error (.fault ⟨u, .localEcc⟩))
    | none => (s, .ok (s.readLocal t core sp bkey a n))

/-- An engine operation of a core writes `n` bytes of a space, as writer `who`. -/
def State.engineWrite (s : State) (t by_ who core : Nat) (sp : Space) (bkey : BitVec 56) (holder a n v : Nat) :
    State × Except EngFault Unit :=
  match sp with
  | .d => match s.engWrite t by_ who holder a n v with
    | (s, .ok ()) => (s, .ok ())
    | (s, .error c) => (s, .error ⟨a, c⟩)
  | .t | .a | .c | .w | .x => (s.writeLocal t core sp bkey a n v, .ok ())

/-- An engine's write would be translated: its address, before any write of the round is performed (R208). -/
def State.engineReady (s : State) (t : Nat) (sp : Space) (holder a n : Nat) : State × Except EngFault Unit :=
  match sp with
  | .d =>
    if 2 ^ 57 < a + n then (s, .error ⟨a, .spaceRange⟩)
    else match s.engPieces t holder true (pagePieces a n) with
      | (s, .error c) => (s, .error ⟨a, c⟩)
      | (s, .ok ps) =>
        if (s.keyFault (s.nodeKey t) ps).isSome then (s, .error ⟨a, .keySlot⟩) else (s, .ok ())
  | .t | .a | .c | .w | .x => (s, .ok ())

/-! ## Rounds (R207, R208) -/

/-- A write that a round holds in its buffer. -/
structure Held where
  addr : Nat
  n : Nat
  v : Nat

/-- Elements of the round that starts at `pos`. -/
def Plan.roundEnd (p : Plan) (pos : Nat) : Nat := min p.total (pos + if p.dst.packed then 65536 / 3 * 4 else 65536 / p.dst.size)

/-- Put an element's bits into the round's writes: the fields of a packed group share one write, its unused fields zero (R84). -/
def holdWrite (d : Side) (lens : List Nat) (n v : Nat) : List Held → List Held
  | [] => [⟨(d.at_ lens n).toNat, if d.packed then 3 else d.size, if d.packed then v * 64 ^ (n % 4) else v⟩]
  | h :: hs =>
    if d.packed ∧ h.addr = (d.at_ lens n).toNat then { h with v := h.v + v * 64 ^ (n % 4) } :: hs
    else ⟨(d.at_ lens n).toNat, if d.packed then 3 else d.size, if d.packed then v * 64 ^ (n % 4) else v⟩ :: h :: hs

/-- The reads of a round, with the translations of its writes: the writes in reverse order and the flags, or the first fault.
`left` elements from `n`. -/
def State.gatherRound (t : Nat) (p : Plan) (tr : Transfer) (h : Nat) :
    Nat → Nat → State → List Held → Flagset → State × Except EngHalt (List Held × Flagset)
  | 0, _, s, ws, f => (s, .ok (ws, f))
  | left + 1, n, s, ws, f =>
    let a := (p.src.at_ p.lens n).toNat
    match s.engineRead t p.src.core p.src.space tr.bkey h a (if p.src.packed then 3 else p.src.size) with
    | (s, .error e) => (s, .error e)
    | (s, .ok raw) =>
      let v := if p.src.packed then raw / 64 ^ (n % 4) % 64 else raw
      let r := if p.src.fmt = 13 then (v, (0 : Flagset))
        else convert p.src.fmt p.dst.fmt (roundMode p.round tr.rnd) p.sscale p.dscale (if p.sat then .on else .off) v
      let d := (p.dst.at_ p.lens n).toNat
      match s.engineReady t p.dst.space h d (if p.dst.packed then 3 else p.dst.size) with
      | (s, .error e) => (s, .error (.fault e))
      | (s, .ok ()) => State.gatherRound t p tr h left (n + 1) s (holdWrite p.dst p.lens n r.1 ws) (f ||| r.2)

/-- The writes of a round, in order. -/
def State.performWrites (t by_ who : Nat) (d : Side) (bkey : BitVec 56) (h : Nat) (s : State) : List Held → State
  | [] => s
  | w :: ws => State.performWrites t by_ who d bkey h (s.engineWrite t by_ who d.core d.space bkey h w.addr w.n w.v).1 ws

/-- What the next round of a channel comes to. -/
inductive RoundEnd where
  /-- no round is to be performed -/
  | idle
  | commit (s : State)
  | void (s : State) (f : EngFault)
  | bad (s : State) (f : EngFault)
  /-- it waits for bytes of host or peer memory -/
  | await (s : State)

/-- The next round of a channel (R208): its reads, its conversions and every translation, then its writes. -/
def State.copyRound (s : State) (t h : Nat) : RoundEnd :=
  let k := s.channel t h
  match k.queue with
  | [] => .idle
  | tr :: _ =>
    if k.held || k.fault.isSome || k.ending.isSome || tr.cancel then .idle
    else
      let p := planOf tr.snap
      let stop := p.roundEnd k.pos
      match State.gatherRound t p tr h (stop - k.pos) k.pos s [] 0 with
      | (s', .error .pending) => .await s'
      | (s', .error (.fault e)) => if e.cause.withholds then .void (s.dropRemote t h) e else .bad s' e
      | (s', .ok (ws, f)) =>
        let s := (State.performWrites t tr.by_.core (16 + h) p.dst tr.bkey h (s'.dropRemote t h) ws.reverse).heal t p.dst.core p.dst.space tr.bkey
          (ws.map fun w => (w.addr, w.n))
        let tr' := { tr with flags := tr.flags ||| f, bytes := tr.bytes + BitVec.ofNat 32 (p.src.bytes k.pos stop) }
        let ending : Option Ending := if stop = p.total then
            some ⟨0, word (tr'.flags.toNat + 128 * tr'.voided.toNat + 2 ^ 32 * tr'.bytes.toNat)⟩ else none
        .commit (s.modChannel t h fun k => { k with queue := tr' :: k.queue.tail, pos := stop, ending := ending })

/-- COPY_ROUND (R208), or the requests to host or peer memory that its reads make (R369). -/
def execCopyRound (t h : Nat) (s : State) : Host.Outcome State Fault Refusal :=
  match s.copyRound t h with
  | .commit s' | .await s' => .next s'
  | .idle | .void _ _ | .bad _ _ => .next s

/-- COPY_ROUND_VOID (R213): the round is voided, the channel held, and the fault reported. -/
def execCopyRoundVoid (t h : Nat) (s : State) : Host.Outcome State Fault Refusal :=
  match s.copyRound t h with
  | .void s e =>
    let tr? := (s.channel t h).queue.head?
    let core := match tr? with | some tr => tr.by_.core | none => 0
    let ident : BitVec 32 := match tr? with | some tr => tr.ident | none => 0
    .next ((s.modChannel t h fun k => { k with
      fault := some (e.va, e.cause)
      queue := match k.queue with | tr :: q => { tr with voided := true } :: q | [] => [] }).withhold t 1 h core ident e.va e.cause)
  | .idle | .commit _ | .bad _ _ | .await _ => .next s

/-- COPY_DATA_ERROR (R214): the round's writes are withheld, and the transfer ends with the cause as its status. -/
def execCopyDataError (t h : Nat) (s : State) : Host.Outcome State Fault Refusal :=
  match s.copyRound t h with
  | .bad s e =>
    .next ((s.modChannel t h fun k => { k with ending := some ⟨BitVec.ofNat 16 (0x8000 + e.cause.code), faultDetail e.va e.cause⟩ }).strikeFor t
      e.cause)
  | .idle | .commit _ | .void _ _ | .await _ => .next s

/-- The tagged completion of a participant finds room in its bank (R256). -/
def State.bankRoom (s : State) (t : Nat) (tagged : Bool) (q p : Nat) : Bool :=
  !tagged || !(s.quire t q).takes p || decide ((s.quire t q).bank p < 15)

/-- A tagged completion arrives (R210, R255). -/
def State.tagArrive (s : State) (t : Nat) (tagged : Bool) (q p : Nat) : State :=
  if tagged then s.modQuire t q fun k => { k.arrive p with tagged := k.tagged - 1 } else s

/-- The completion of a transfer may take effect: the channel's writes have been performed, its acknowledgements are in, and its bank has
room (R124, R128, R256). -/
def State.transferDue (s : State) (t h : Nat) (tr : Transfer) : Bool :=
  let p := planOf tr.snap
  s.bankRoom t p.qtag p.qnum (4 + h) && s.owedAcks t tr.by_.core (16 + h) == 0 && !s.opOutside t h

/-- The head transfer of a channel may complete. -/
def State.copyDue (s : State) (t h : Nat) : Bool :=
  let k := s.channel t h
  match k.queue with
  | tr :: _ => (k.ending.isSome || tr.cancel) && s.transferDue t h tr
  | [] => false

/-- A transfer completes with a status and a detail (R210): its quoin entries go, `leave` takes it from the channel, its record is written
and its arrival made. -/
def State.settleTransfer (s : State) (t h : Nat) (tr : Transfer) (e : Ending) (leave : State → State) : State :=
  let p := planOf tr.snap
  let s := leave (s.dropQuoins t tr.by_.core 1 h tr.ident)
  let s := if p.ev then s.deliver t tr.by_.core (mkRecord 1 h e.status tr.ident e.detail) else s
  s.tagArrive t p.qtag p.qnum (4 + h)

/-- The completion of the head transfer with a status and a detail (R210). -/
def State.copyComplete (s : State) (t h : Nat) (e : Ending) : State :=
  match (s.channel t h).queue with
  | [] => s
  | tr :: q =>
    s.settleTransfer t h tr e fun s =>
      let s := s.modChannel t h fun k => { k with done := tr.ident + 1, queue := q, pos := 0, ending := none, fault := none }
      (s.modXnode t fun x => { x with pins := x.pins.erase h }).dropRemote t h

/-- How a cancelled operation completes (R210, R215). -/
def Ending.cancelled : Ending := ⟨0x4000, 0⟩

/-- How the head transfer of a channel is to complete, if it is to (R210, R215). -/
def Channel.outcome (k : Channel) : Option Ending :=
  match k.queue with
  | tr :: _ => if tr.cancel then some .cancelled else k.ending
  | [] => none

/-- The transfers that a channel was rebuilt without complete with status 0x4000, as far as their banks have room (R215, R256). -/
def State.completeDropped (t h : Nat) : List Transfer → State → State
  | [], s => s
  | tr :: rest, s =>
    if s.transferDue t h tr then
      State.completeDropped t h rest (s.settleTransfer t h tr .cancelled fun s => s.modChannel t h fun k => { k with dropped := rest })
    else s

/-- COPY_TRANSFER_COMPLETE (R210): those that the channel was rebuilt without first (R215). -/
def execCopyTransferComplete (t h : Nat) (s : State) : Host.Outcome State Fault Refusal :=
  match (s.channel t h).dropped with
  | _ :: _ => .next (State.completeDropped t h (s.channel t h).dropped s)
  | [] => match (s.channel t h).outcome with
    | some e => .next (if s.copyDue t h then s.copyComplete t h e else s)
    | none => .next s

end Sys2Proof.Machine
end

