-- ==== Sys2Proof/Machine/Transc.lean ====
section
/-! DEFINITION. The five functions of R273 that ignore the rounding mode: 2^x, log2, sin, cos and tanh of an IEEE value, rounded to
the nearest. Each is computed from its series with 256 fraction bits, and its low bit tells that it is inexact. -/

namespace Sys2Proof.Machine

/-- Fraction bits of the fixed-point values below. -/
def fixBits : Nat := 256

/-- ln 2 with 256 fraction bits. -/
def ln2Fix : Nat := 0xb17217f7d1cf79abc9e3b39803f2f6af40f343267298b62d8a0d175b8baafa2b

/-- π with 256 fraction bits. -/
def piFix : Nat := 0x3243f6a8885a308d313198a2e03707344a4093822299f31d0082efa98ec4e6c89

/-- The product of two fixed-point values. -/
def fixMul (a b : Nat) : Nat := a * b / 2 ^ fixBits

/-- The quotient of two fixed-point values. -/
def fixDiv (a b : Nat) : Nat := a * 2 ^ fixBits / b

/-- `term` + term·y/k + term·y²/(k (k+1)) + …, `n` more terms. -/
def expSeries (y : Nat) : Nat → Nat → Nat → Nat
  | 0, _, term => term
  | n + 1, k, term => term + expSeries y n (k + 1) (fixMul term y / k)

/-- 2^f of a fraction f. -/
def exp2Fix (f : Nat) : Nat := expSeries (fixMul f ln2Fix) 70 1 (2 ^ fixBits)

/-- t/k + t·z²/(k + 2) + …: the series of the inverse hyperbolic tangent. -/
def atanhSeries (z2 : Nat) : Nat → Nat → Nat → Nat
  | 0, _, _ => 0
  | n + 1, k, t => t / k + atanhSeries z2 n (k + 2) (fixMul t z2)

/-- log2 of a value from 1 to 2. -/
def log2Fix (m : Nat) : Nat :=
  let one := 2 ^ fixBits
  let z := fixDiv (m - one) (m + one)
  fixDiv (2 * atanhSeries (fixMul z z) 90 1 z) ln2Fix

/-- The alternating series of the sine (from `k` = 2) and the cosine (from `k` = 1): term − term·y²/(k (k+1)) + … -/
def waveSeries (y2 : Nat) : Nat → Nat → Nat → Int
  | 0, _, _ => 0
  | n + 1, k, term => (term : Int) - waveSeries y2 n (k + 2) (fixMul term y2 / (k * (k + 1)))

/-- The sine and the cosine of an angle below π/2. -/
def sinFix (r : Nat) : Int := waveSeries (fixMul r r) 40 2 r
def cosFix (r : Nat) : Int := waveSeries (fixMul r r) 40 1 (2 ^ fixBits)

/-- m × 2^e as a fixed-point value. -/
def toFix (m : Nat) (e : Int) : Nat :=
  let k := e + fixBits
  if 0 ≤ k then m * 2 ^ k.toNat else m / 2 ^ (-k).toNat

/-- An inexact magnitude with 256 fraction bits, times 2^n, rounded to the nearest. -/
def roundFix (fmt : Nat) (neg : Bool) (v : Nat) (n : Int) : Nat × Flagset :=
  roundIeee fmt 1 false neg (2 * v + 1) (n - fixBits - 1)

/-- m × 2^e moved by less than half of any place that counts, towards zero or away. -/
def roundNear (fmt : Nat) (neg : Bool) (m : Nat) (e : Int) (up : Bool) : Nat × Flagset :=
  roundIeee fmt 1 false neg (if up then m * 2 ^ 64 + 1 else m * 2 ^ 64 - 1) (e - 64)

/-- Whether m × 2^e is below 2^k. -/
def isBelow (m : Nat) (e k : Int) : Bool := m == 0 || decide ((m.log2 : Int) + e < k)

/-- The NaN that a NaN gives (R78). -/
def nanOf (fmt : Nat) (sg : Bool) : Nat × Flagset := (canonNan fmt, if sg then flNv else 0)

/-- VEXP2 of a value (R273). -/
def fExp2Num (fmt : Nat) : Num → Nat × Flagset
  | .nan sg => nanOf fmt sg
  | .nar => (canonNan fmt, 0)
  | .inf neg => (if neg then zeroBits fmt false else infBits fmt false, 0)
  | .fin neg m e =>
    if m = 0 then roundIeee fmt 1 false false 1 0
    else if isBelow m e (-64) then roundNear fmt false 1 0 (!neg)
    else if !isBelow m e 12 then roundIeee fmt 1 false false 1 (if neg then -4096 else 4096)
    else
      let x := toFix m e
      let n := x / 2 ^ fixBits
      let f := x % 2 ^ fixBits
      if f = 0 then roundIeee fmt 1 false false 1 (if neg then -(n : Int) else n)
      else if neg then roundFix fmt false (exp2Fix (2 ^ fixBits - f)) (-(n : Int) - 1)
      else roundFix fmt false (exp2Fix f) n

/-- VLOG2 of a value (R273). -/
def fLog2Num (fmt : Nat) : Num → Nat × Flagset
  | .nan sg => nanOf fmt sg
  | .nar => (canonNan fmt, 0)
  | .inf neg => if neg then (canonNan fmt, flNv) else (infBits fmt false, 0)
  | .fin neg m e =>
    if m = 0 then (infBits fmt true, flDz)
    else if neg then (canonNan fmt, flNv)
    else
      let k : Int := e + m.log2
      if m = 2 ^ m.log2 then roundIeee fmt 1 false (decide (k < 0)) k.natAbs 0
      else
        let v : Int := k * 2 ^ fixBits + log2Fix (toFix m (-(m.log2 : Int)))
        roundFix fmt (decide (v < 0)) v.natAbs 0

/-- The sine (or the cosine) of a finite value that is no zero, at most 2^20 in magnitude. -/
def fWave (fmt : Nat) (cosine neg : Bool) (m : Nat) (e : Int) : Nat × Flagset :=
  if isBelow m e (-32) then (if cosine then roundNear fmt false 1 0 false else roundNear fmt neg m e false)
  else
    let half := piFix / 2
    let x := toFix m e
    let k := x / half
    let r := x % half
    let turn := (if cosine then k + 1 else k) % 4
    let v := if turn % 2 = 0 then sinFix r else cosFix r
    let minus := decide (2 ≤ turn) != (neg && !cosine)
    roundFix fmt minus v.natAbs 0

/-- VSIN and VCOS of a value (R273). -/
def fWaveNum (fmt : Nat) (cosine : Bool) : Num → Nat × Flagset
  | .nan sg => nanOf fmt sg
  | .nar => (canonNan fmt, 0)
  | .inf _ => (canonNan fmt, flNv)
  | .fin neg m e =>
    if m = 0 then (if cosine then roundIeee fmt 1 false false 1 0 else (zeroBits fmt neg, 0))
    else if !isBelow m e 20 && !(m == 2 ^ m.log2 && decide ((m.log2 : Int) + e = 20)) then (canonNan fmt, flNv)
    else fWave fmt cosine neg m e

/-- VTANH of a value (R273): (1 − u) / (1 + u) with u = 2^(−2|x| / ln 2). -/
def fTanhNum (fmt : Nat) : Num → Nat × Flagset
  | .nan sg => nanOf fmt sg
  | .nar => (canonNan fmt, 0)
  | .inf neg => roundIeee fmt 1 false neg 1 0
  | .fin neg m e =>
    if m = 0 then (zeroBits fmt neg, 0)
    else if isBelow m e (-32) then roundNear fmt neg m e false
    else if !isBelow m e 6 then roundNear fmt neg 1 0 false
    else
      let one := 2 ^ fixBits
      let t := fixDiv (2 * toFix m e) ln2Fix
      let n := t / one + 1
      let u := exp2Fix (n * one - t) / 2 ^ n
      roundFix fmt neg (fixDiv (one - u) (one + u)) 0

end Sys2Proof.Machine
end

