-- ==== Sys2Proof/Machine/Vector.lean ====
section
/-! DEFINITION. The vector unit: lanes and masks, arithmetic, moves, conversions, reductions, permutations, mask operations and dot
products (R265 to R279, R283, R288). -/

namespace Sys2Proof.Machine

/-! ## Lanes and masks (R265, R266) -/

/-- The element format of PX.M. -/
def vfmt (o : Opnd) : Nat := o.mf 9 6

/-- Bits of a lane: tf6 in padded form. -/
def laneBits (fmt : Nat) : Nat := if fmt = 4 then 8 else fmtBits fmt

/-- Lanes of a register. -/
def laneCount (fmt : Nat) : Nat := 1024 / laneBits fmt

/-- Lane `i` of `w` bits. -/
def laneAt (w v i : Nat) : Nat := v / 2 ^ (w * i) % 2 ^ w

/-- Lanes of `w` bits, lowest first, as one number. -/
def joinLanes (w : Nat) (ls : List Nat) : Nat := ls.foldr (fun x acc => x % 2 ^ w + 2 ^ w * acc) 0

/-- The mask register that governs an instruction, unless it is unmasked. -/
def useMask (o : Opnd) : List Nat := if o.mf 5 3 = 0 then [] else [o.mf 5 3]

/-- Whether lane `i` of `w` bits is active: bit i × s of the mask governs it, bit i div 2 for s4. -/
def State.active (s : State) (o : Opnd) (w i : Nat) : Bool := o.mf 5 3 == 0 || (s.rk (o.mf 5 3)).getLsbD (i * w / 8)

/-- The active lanes of a register, ascending. -/
def State.activeLanes (s : State) (o : Opnd) (w : Nat) : List Nat := (List.range (1024 / w)).filter (s.active o w)

/-- What the inactive lanes of the destination hold: zeros in a token of a stream (R269). -/
def State.vold (s : State) (n : Nat) : Nat :=
  match s.myCore.binding s.cur.ctx true n with
  | some _ => 0
  | none => (s.me.v n).toNat

/-- A vector source as a number. -/
def State.vn (s : State) (n : Nat) : Nat := (s.rv n).toNat

/-- A result for the vector destination (R136, R267). -/
def State.vput (s : State) (o : Opnd) (v : Nat) : State := s.lv (dn o) (.vec (BitVec.ofNat 1024 v)) o.len

/-- A result for a mask register. -/
def State.kput (s : State) (n : Nat) (v : KWord) (len : Nat) : State := s.launch (.k n) (.mask v) len

/-- Registers of a vector instruction. -/
def useV (o : Opnd) (reads writes : List Nat) : Use := ⟨[], [], reads, writes, useMask o, []⟩

/-- Vector registers x and y of a binary instruction (R270). -/
def useV2 (o : Opnd) : Use := useV o [formX o, formY o] [dn o]

/-- Registers of a unary vector instruction. -/
def useV1 (o : Opnd) : Use := useV o [an o] [dn o]

/-- The state after lanes of `w` bits are computed: active ones by `f`, with its flags; the others keep what they hold (R266). -/
def State.vlanes (s : State) (o : Opnd) (w : Nat) (f : Nat → Nat × Flagset) : State :=
  let old := s.vold (dn o)
  let rs := (List.range (1024 / w)).map fun i => if s.active o w i then f i else (laneAt w old i, 0)
  (s.addFlags ((rs.map Prod.snd).foldl (· ||| ·) 0)).vput o (joinLanes w (rs.map Prod.fst))

/-- The effect of a binary instruction, lane by lane. -/
def lanes2 (o : Opnd) (f : State → Nat → Nat → Nat × Flagset) (s : State) : State × Act :=
  let w := laneBits (vfmt o)
  let x := s.vn (formX o)
  let y := s.vn (formY o)
  (s.vlanes o w fun i => f s (laneAt w x i) (laneAt w y i), .done)

/-- The effect of a unary instruction, lane by lane. -/
def lanes1 (o : Opnd) (f : State → Nat → Nat × Flagset) (s : State) : State × Act :=
  let w := laneBits (vfmt o)
  let x := s.vn (an o)
  (s.vlanes o w fun i => f s (laneAt w x i), .done)

/-! ## Lane results -/

/-- A float format. -/
def isFloat (fmt : Nat) : Bool := decide (fmt ≤ 2)

/-- The rounding mode of the instruction (R86). -/
def State.vmode (s : State) (o : Opnd) : Nat := roundMode (o.mf 2 0) s.me.sys.fmode

/-- An integer lane's value. -/
def intVal (fmt v : Nat) : Int :=
  let w := laneBits fmt
  if fmtSigned fmt && decide (2 ^ (w - 1) ≤ v) then (v : Int) - 2 ^ w else v

/-- An integer saturated to its format (R274, R279). -/
def satLane (fmt : Nat) (v : Int) : Nat × Flagset :=
  let w := laneBits fmt
  let r := clampInt (intLo w (fmtSigned fmt)) (intHi w (fmtSigned fmt)) v
  (lowBits w r.1, r.2)

/-- x + y. -/
def addLane (fmt mode x y : Nat) : Nat × Flagset :=
  if isFloat fmt then fAddNum fmt mode (decodeNum fmt 0 x) (decodeNum fmt 0 y) else (x + y, 0)

/-- x − y. -/
def subLane (fmt mode x y : Nat) : Nat × Flagset :=
  if isFloat fmt then fAddNum fmt mode (decodeNum fmt 0 x) (decodeNum fmt 0 y).negate else (x + 2 ^ laneBits fmt - y, 0)

/-- x × y. -/
def mulLane (fmt mode x y : Nat) : Nat × Flagset :=
  if isFloat fmt then fMulNum fmt mode (decodeNum fmt 0 x) (decodeNum fmt 0 y) else (x * y, 0)

/-- x / y. -/
def divLane (fmt mode x y : Nat) : Nat × Flagset := fDivNum fmt mode (decodeNum fmt 0 x) (decodeNum fmt 0 y)

/-- The smaller or the larger. -/
def minMaxLane (fmt : Nat) (mx : Bool) (x y : Nat) : Nat × Flagset :=
  if isFloat fmt then fMinMax fmt mx x y
  else if decide (intVal fmt x < intVal fmt y) == mx then (y, 0) else (x, 0)

/-- A float lane with its sign changed by `f`; a NaN gives the canonical NaN. -/
def signLane (fmt : Nat) (f : Bool → Bool) (x : Nat) : Nat × Flagset :=
  let w := laneBits fmt
  match decodeNum fmt 0 x with
  | .nan sg => nanOf fmt sg
  | .nar => (canonNan fmt, 0)
  | .inf neg | .fin neg _ _ => (x % 2 ^ (w - 1) + (f neg).toNat * 2 ^ (w - 1), 0)

/-- |x|. -/
def absLane (fmt x : Nat) : Nat × Flagset :=
  if isFloat fmt then signLane fmt (fun _ => false) x else ((intVal fmt x).natAbs, 0)

/-- −x. -/
def negLane (fmt x : Nat) : Nat × Flagset := if isFloat fmt then signLane fmt (!·) x else (2 ^ laneBits fmt - x, 0)

/-! ## Arithmetic (R271 to R274) -/

/-- VADD (R271). -/
def execVadd (o : Opnd) (s : State) : Host.Outcome State Fault Refusal :=
  meaning o (useV2 o) (lanes2 o fun s x y => addLane (vfmt o) (s.vmode o) x y) s

/-- VSUB (R271). -/
def execVsub (o : Opnd) (s : State) : Host.Outcome State Fault Refusal :=
  meaning o (useV2 o) (lanes2 o fun s x y => subLane (vfmt o) (s.vmode o) x y) s

/-- VMUL (R271). -/
def execVmul (o : Opnd) (s : State) : Host.Outcome State Fault Refusal :=
  meaning o (useV2 o) (lanes2 o fun s x y => mulLane (vfmt o) (s.vmode o) x y) s

/-- VDIV (R271). -/
def execVdiv (o : Opnd) (s : State) : Host.Outcome State Fault Refusal :=
  meaning o (useV2 o) (lanes2 o fun s x y => divLane (vfmt o) (s.vmode o) x y) s

/-- VMIN (R271). -/
def execVmin (o : Opnd) (s : State) : Host.Outcome State Fault Refusal :=
  meaning o (useV2 o) (lanes2 o fun _ x y => minMaxLane (vfmt o) false x y) s

/-- VMAX (R271). -/
def execVmax (o : Opnd) (s : State) : Host.Outcome State Fault Refusal :=
  meaning o (useV2 o) (lanes2 o fun _ x y => minMaxLane (vfmt o) true x y) s

/-- VABS (R271). -/
def execVabs (o : Opnd) (s : State) : Host.Outcome State Fault Refusal :=
  meaning o (useV1 o) (lanes1 o fun _ x => absLane (vfmt o) x) s

/-- VNEG (R271). -/
def execVneg (o : Opnd) (s : State) : Host.Outcome State Fault Refusal :=
  meaning o (useV1 o) (lanes1 o fun _ x => negLane (vfmt o) x) s

/-- The effect of a fused multiply-add, lane by lane (R272). -/
def fmaBody (o : Opnd) (negProd negAcc : Bool) (s : State) : State × Act :=
  let fmt := vfmt o
  let w := laneBits fmt
  let x := s.vn (an o)
  let y := s.vn (bn o)
  let z := s.vn (dn o)
  let num (v i : Nat) : Num := decodeNum fmt 0 (laneAt w v i)
  (s.vlanes o w fun i => fFmaNum fmt (s.vmode o) negProd negAcc (num x i) (num y i) (num z i), .done)

/-- Registers of an instruction whose destination is a source too. -/
def useV3 (o : Opnd) : Use := useV o [an o, bn o, dn o] [dn o]

/-- VFMA (R272). -/
def execVfma (o : Opnd) (s : State) : Host.Outcome State Fault Refusal := meaning o (useV3 o) (fmaBody o false false) s

/-- VFMS (R272). -/
def execVfms (o : Opnd) (s : State) : Host.Outcome State Fault Refusal := meaning o (useV3 o) (fmaBody o false true) s

/-- VFNMA (R272). -/
def execVfnma (o : Opnd) (s : State) : Host.Outcome State Fault Refusal := meaning o (useV3 o) (fmaBody o true true) s

/-- VFNMS (R272). -/
def execVfnms (o : Opnd) (s : State) : Host.Outcome State Fault Refusal := meaning o (useV3 o) (fmaBody o true false) s

/-- The effect of a function of R273. -/
def unaryBody (o : Opnd) (f : State → Num → Nat × Flagset) (s : State) : State × Act :=
  lanes1 o (fun s x => f s (decodeNum (vfmt o) 0 x)) s

/-- VEXP2 (R273). -/
def execVexp2 (o : Opnd) (s : State) : Host.Outcome State Fault Refusal :=
  meaning o (useV1 o) (unaryBody o fun _ x => fExp2Num (vfmt o) x) s

/-- VLOG2 (R273). -/
def execVlog2 (o : Opnd) (s : State) : Host.Outcome State Fault Refusal :=
  meaning o (useV1 o) (unaryBody o fun _ x => fLog2Num (vfmt o) x) s

/-- VRCP (R273). -/
def execVrcp (o : Opnd) (s : State) : Host.Outcome State Fault Refusal :=
  meaning o (useV1 o) (unaryBody o fun s x => fRcpNum (vfmt o) (s.vmode o) x) s

/-- VRSQRT (R273). -/
def execVrsqrt (o : Opnd) (s : State) : Host.Outcome State Fault Refusal :=
  meaning o (useV1 o) (unaryBody o fun s x => fRsqrtNum (vfmt o) (s.vmode o) x) s

/-- VSIN (R273). -/
def execVsin (o : Opnd) (s : State) : Host.Outcome State Fault Refusal :=
  meaning o (useV1 o) (unaryBody o fun _ x => fWaveNum (vfmt o) false x) s

/-- VCOS (R273). -/
def execVcos (o : Opnd) (s : State) : Host.Outcome State Fault Refusal :=
  meaning o (useV1 o) (unaryBody o fun _ x => fWaveNum (vfmt o) true x) s

/-- VTANH (R273). -/
def execVtanh (o : Opnd) (s : State) : Host.Outcome State Fault Refusal :=
  meaning o (useV1 o) (unaryBody o fun _ x => fTanhNum (vfmt o) x) s

/-- VSQRT (R273). -/
def execVsqrt (o : Opnd) (s : State) : Host.Outcome State Fault Refusal :=
  meaning o (useV1 o) (unaryBody o fun s x => fSqrtNum (vfmt o) (s.vmode o) x) s

/-- VAND (R274). -/
def execVand (o : Opnd) (s : State) : Host.Outcome State Fault Refusal :=
  meaning o (useV2 o) (lanes2 o fun _ x y => (x &&& y, 0)) s

/-- VOR (R274). -/
def execVor (o : Opnd) (s : State) : Host.Outcome State Fault Refusal :=
  meaning o (useV2 o) (lanes2 o fun _ x y => (x ||| y, 0)) s

/-- VXOR (R274). -/
def execVxor (o : Opnd) (s : State) : Host.Outcome State Fault Refusal :=
  meaning o (useV2 o) (lanes2 o fun _ x y => (x ^^^ y, 0)) s

/-- VSHL (R274). -/
def execVshl (o : Opnd) (s : State) : Host.Outcome State Fault Refusal :=
  meaning o (useV2 o) (lanes2 o fun _ x y => (x * 2 ^ (y % laneBits (vfmt o)), 0)) s

/-- VSHR (R274). -/
def execVshr (o : Opnd) (s : State) : Host.Outcome State Fault Refusal :=
  meaning o (useV2 o) (lanes2 o fun _ x y => (x / 2 ^ (y % laneBits (vfmt o)), 0)) s

/-- x shifted right by y mod 8s with copies of the lane's top bit, whatever the format (R274). -/
def sarLane (fmt x y : Nat) : Nat :=
  let w := laneBits fmt
  let v : Int := if 2 ^ (w - 1) ≤ x then (x : Int) - 2 ^ w else x
  lowBits w (v / 2 ^ (y % w))

/-- VSAR (R274). -/
def execVsar (o : Opnd) (s : State) : Host.Outcome State Fault Refusal :=
  meaning o (useV2 o) (lanes2 o fun _ x y => (sarLane (vfmt o) x y, 0)) s

/-- VADDS (R274). -/
def execVadds (o : Opnd) (s : State) : Host.Outcome State Fault Refusal :=
  meaning o (useV2 o) (lanes2 o fun _ x y => satLane (vfmt o) (intVal (vfmt o) x + intVal (vfmt o) y)) s

/-- VSUBS (R274). -/
def execVsubs (o : Opnd) (s : State) : Host.Outcome State Fault Refusal :=
  meaning o (useV2 o) (lanes2 o fun _ x y => satLane (vfmt o) (intVal (vfmt o) x - intVal (vfmt o) y)) s

/-! ## Compares (R275) -/

/-- A mask that sets all bits of the lanes that `hit` names (R266). -/
def laneMask (w : Nat) (hit : Nat → Bool) : KWord :=
  BitVec.ofNat 128 (joinLanes (w / 8) ((List.range (1024 / w)).map fun i => if hit i then 2 ^ (w / 8) - 1 else 0))

/-- The relation of two lanes, none where one is a NaN, and the flags. -/
def relLane (fmt x y : Nat) : Option Ordering × Flagset :=
  if isFloat fmt then
    let p := decodeNum fmt 0 x
    let q := decodeNum fmt 0 y
    (if p.isNan || q.isNan then none else some (cmpNum p q), snanFlag [p, q])
  else (some (compare (intVal fmt x) (intVal fmt y)), 0)

/-- The effect of a compare. -/
def compareBody (o : Opnd) (holds : Option Ordering → Bool) (s : State) : State × Act :=
  let fmt := vfmt o
  let w := laneBits fmt
  let x := s.vn (an o)
  let y := s.vn (bn o)
  let rel (i : Nat) := relLane fmt (laneAt w x i) (laneAt w y i)
  let fl := (s.activeLanes o w).foldl (fun f i => f ||| (rel i).2) (0 : Flagset)
  ((s.addFlags fl).kput (dn o) (laneMask w fun i => s.active o w i && holds (rel i).1) o.len, .done)

/-- Registers of a compare. -/
def useVcmp (o : Opnd) : Use := ⟨[], [], [an o, bn o], [], useMask o, [dn o]⟩

/-- VCMPEQ (R275). -/
def execVcmpeq (o : Opnd) (s : State) : Host.Outcome State Fault Refusal :=
  meaning o (useVcmp o) (compareBody o fun r => r == some .eq) s

/-- VCMPLT (R275). -/
def execVcmplt (o : Opnd) (s : State) : Host.Outcome State Fault Refusal :=
  meaning o (useVcmp o) (compareBody o fun r => r == some .lt) s

/-- VCMPLE (R275). -/
def execVcmple (o : Opnd) (s : State) : Host.Outcome State Fault Refusal :=
  meaning o (useVcmp o) (compareBody o fun r => r == some .lt || r == some .eq) s

/-- VCMPNE (R275). -/
def execVcmpne (o : Opnd) (s : State) : Host.Outcome State Fault Refusal :=
  meaning o (useVcmp o) (compareBody o fun r => r != some .eq) s

/-! ## Moves, conversions and permutations (R276 to R278) -/

/-- VMOV (R276). -/
def execVmov (o : Opnd) (s : State) : Host.Outcome State Fault Refusal :=
  meaning o (useV1 o) (lanes1 o fun _ x => (x, 0)) s

/-- VSEL (R276). -/
def execVsel (o : Opnd) (s : State) : Host.Outcome State Fault Refusal :=
  meaning o (useV o [an o, bn o] [dn o]) (fun s =>
    let w := laneBits (vfmt o)
    let x := s.vn (an o)
    let y := s.vn (bn o)
    (s.vput o (joinLanes w ((List.range (1024 / w)).map fun i => if s.active o w i then laneAt w x i else laneAt w y i)), .done)) s

/-- VBCAST (R276). -/
def execVbcast (o : Opnd) (s : State) : Host.Outcome State Fault Refusal :=
  meaning o ⟨[an o], [], [], [dn o], useMask o, []⟩ (fun s =>
    (s.vlanes o (laneBits (vfmt o)) fun _ => ((s.rg (an o)).toNat, 0), .done)) s

/-- VEXTR (R276). -/
def execVextr (o : Opnd) (s : State) : Host.Outcome State Fault Refusal :=
  meaning o ⟨[bn o], [dn o], [an o], [], [], []⟩ (fun s =>
    let w := laneBits (vfmt o)
    let i := (s.rg (bn o)).toNat
    if 1024 / w ≤ i then (s, .trap .vectorShape (Instr.vextr o).info)
    else
      let v := laneAt w (s.vn (an o)) i
      (s.lg (dn o) (.word (wordI (if fmtSigned (vfmt o) then intVal (vfmt o) v else v))) o.len, .done)) s

/-- VCVT (R277): lanes of the larger of the two formats; zeros beyond them. -/
def execVcvt (o : Opnd) (s : State) : Host.Outcome State Fault Refusal :=
  meaning o (useV1 o) (fun s =>
    let src := vfmt o
    let dst := fxBits o 3 0
    let ws := laneBits src
    let wd := laneBits dst
    let x := s.vn (an o)
    let old := s.vold (dn o)
    let rs := (List.range (1024 / max ws wd)).map fun i =>
      if s.active o wd i then convert src dst (s.vmode o) 0 0 .vcvt (laneAt ws x i) else (laneAt wd old i, 0)
    ((s.addFlags ((rs.map Prod.snd).foldl (· ||| ·) 0)).vput o (joinLanes wd (rs.map Prod.fst)), .done)) s

/-- VPERM (R278). -/
def execVperm (o : Opnd) (s : State) : Host.Outcome State Fault Refusal :=
  meaning o (useV o [an o, bn o] [dn o]) (fun s =>
    let w := laneBits (vfmt o)
    let x := s.vn (an o)
    let y := s.vn (bn o)
    if (s.activeLanes o w).any fun i => decide (1024 / w ≤ laneAt w y i) then (s, .trap .vectorShape (Instr.vperm o).info)
    else (s.vlanes o w fun i => (laneAt w x (laneAt w y i), 0), .done)) s

/-- VCOMPRESS (R278). -/
def execVcompress (o : Opnd) (s : State) : Host.Outcome State Fault Refusal :=
  meaning o (useV1 o) (fun s =>
    let w := laneBits (vfmt o)
    let x := s.vn (an o)
    (s.vput o (joinLanes w ((s.activeLanes o w).map (laneAt w x))), .done)) s

/-- VEXPAND (R278). -/
def execVexpand (o : Opnd) (s : State) : Host.Outcome State Fault Refusal :=
  meaning o (useV1 o) (fun s =>
    let w := laneBits (vfmt o)
    let x := s.vn (an o)
    (s.vlanes o w fun i => (laneAt w x ((List.range i).filter (s.active o w)).length, 0), .done)) s

/-- VROT (R278). -/
def execVrot (o : Opnd) (s : State) : Host.Outcome State Fault Refusal :=
  meaning o ⟨[bn o], [], [an o], [dn o], useMask o, []⟩ (fun s =>
    let w := laneBits (vfmt o)
    let x := s.vn (an o)
    let g := (s.rg (bn o)).toInt
    (s.vlanes o w fun i => (laneAt w x ((i + g) % (1024 / w : Nat)).toNat, 0), .done)) s

/-! ## Reductions (R279, R96, R97) -/

/-- One level of the tree of R96. -/
def pairUp (add : Nat → Nat → Nat × Flagset) : List (Nat × Flagset) → List (Nat × Flagset)
  | a :: b :: l => let r := add a.1 b.1; (r.1, a.2 ||| b.2 ||| r.2) :: pairUp add l
  | l => l

/-- The fixed pairwise tree of R96, `n` levels of it. -/
def treeSum (add : Nat → Nat → Nat × Flagset) : Nat → List (Nat × Flagset) → Nat × Flagset
  | 0, l => l.headD (0, 0)
  | n + 1, l => treeSum add n (pairUp add l)

/-- The lanes of a reduction: an inactive lane enters as −0, or as 0 (R279). -/
def State.reduced (s : State) (o : Opnd) : List Nat :=
  let fmt := vfmt o
  let w := laneBits fmt
  let x := s.vn (an o)
  (List.range (1024 / w)).map fun i => if s.active o w i then laneAt w x i else zeroBits fmt true

/-- A float lane as the sum of one lane: a NaN gives the canonical NaN (R78). -/
def firstSum (fmt x : Nat) : Nat × Flagset :=
  match decodeNum fmt 0 x with
  | .nan sg => nanOf fmt sg
  | .nar | .inf _ | .fin _ _ _ => (x, 0)

/-- The prefix sums of float lanes, each addition rounded, after the sum `acc`. -/
def scanFloat (fmt mode : Nat) : Nat → List Nat → List (Nat × Flagset)
  | _, [] => []
  | acc, x :: l => let r := addLane fmt mode acc x; r :: scanFloat fmt mode r.1 l

/-- The prefix sums of integer lanes, each exact sum saturated once. -/
def scanInt (fmt : Nat) : Int → List Nat → List (Nat × Flagset)
  | _, [] => []
  | acc, x :: l => let v := acc + intVal fmt x; satLane fmt v :: scanInt fmt v l

/-- VREDSUM (R279, R96, R97). -/
def execVredsum (o : Opnd) (s : State) : Host.Outcome State Fault Refusal :=
  meaning o (useV1 o) (fun s =>
    let fmt := vfmt o
    let ls := s.reduced o
    let r := if isFloat fmt then treeSum (addLane fmt (s.vmode o)) (laneCount fmt).log2 (ls.map fun x => (x, 0))
      else satLane fmt ((ls.map (intVal fmt)).foldl (· + ·) 0)
    ((s.addFlags r.2).vput o r.1, .done)) s

/-- The smallest (or largest) of the active lanes (R279). -/
def reduceOrder (fmt : Nat) (mx : Bool) (ls : List Nat) : Nat × Flagset :=
  let w := laneBits fmt
  if isFloat fmt then
    let ns := ls.map (decodeNum fmt 0)
    let live := ls.filter fun x => !(decodeNum fmt 0 x).isNan
    (match live with
      | x :: l => l.foldl (fun m y => (fMinMax fmt mx m y).1) x
      | [] => if ls.isEmpty then infBits fmt mx else canonNan fmt, snanFlag ns)
  else match ls with
    | x :: l => (l.foldl (fun m y => (minMaxLane fmt mx m y).1) x, 0)
    | [] => (lowBits w (if mx then intLo w (fmtSigned fmt) else intHi w (fmtSigned fmt)), 0)

/-- The effect of VREDMIN and VREDMAX. -/
def reduceBody (o : Opnd) (mx : Bool) (s : State) : State × Act :=
  let w := laneBits (vfmt o)
  let x := s.vn (an o)
  let r := reduceOrder (vfmt o) mx ((s.activeLanes o w).map (laneAt w x))
  ((s.addFlags r.2).vput o r.1, .done)

/-- VREDMIN (R279). -/
def execVredmin (o : Opnd) (s : State) : Host.Outcome State Fault Refusal := meaning o (useV1 o) (reduceBody o false) s

/-- VREDMAX (R279). -/
def execVredmax (o : Opnd) (s : State) : Host.Outcome State Fault Refusal := meaning o (useV1 o) (reduceBody o true) s

/-- VSCAN (R279, R97). -/
def execVscan (o : Opnd) (s : State) : Host.Outcome State Fault Refusal :=
  meaning o (useV1 o) (fun s =>
    let fmt := vfmt o
    let ls := s.reduced o
    let rs := if isFloat fmt then
        let r := firstSum fmt (ls.headD 0)
        r :: scanFloat fmt (s.vmode o) r.1 ls.tail
      else scanInt fmt 0 ls
    ((s.addFlags ((rs.map Prod.snd).foldl (· ||| ·) 0)).vput o (joinLanes (laneBits fmt) (rs.map Prod.fst)), .done)) s

/-! ## Masks (R283) -/

/-- Registers of a mask operation on masks alone. -/
def useK (reads : List Nat) (o : Opnd) : Use := ⟨[], [], [], [], reads, [dn o]⟩

/-- The effect of an operation of two masks. -/
def kBody (o : Opnd) (f : KWord → KWord → KWord) (s : State) : State × Act :=
  (s.kput (dn o) (f (s.rk (formX o)) (s.rk (formY o))) o.len, .done)

/-- KAND (R283). -/
def execKand (o : Opnd) (s : State) : Host.Outcome State Fault Refusal :=
  meaning o (useK [formX o, formY o] o) (kBody o fun x y => x &&& y) s

/-- KOR (R283). -/
def execKor (o : Opnd) (s : State) : Host.Outcome State Fault Refusal :=
  meaning o (useK [formX o, formY o] o) (kBody o fun x y => x ||| y) s

/-- KXOR (R283). -/
def execKxor (o : Opnd) (s : State) : Host.Outcome State Fault Refusal :=
  meaning o (useK [formX o, formY o] o) (kBody o fun x y => x ^^^ y) s

/-- KNOT (R283). -/
def execKnot (o : Opnd) (s : State) : Host.Outcome State Fault Refusal :=
  meaning o (useK [an o] o) (fun s => (s.kput (dn o) (~~~(s.rk (an o))) o.len, .done)) s

/-- KMOV (R283). -/
def execKmov (o : Opnd) (s : State) : Host.Outcome State Fault Refusal :=
  meaning o (useK [an o] o) (fun s => (s.kput (dn o) (s.rk (an o)) o.len, .done)) s

/-- Number of set bits of a mask. -/
def kpopc (k : KWord) : Nat := ((List.range 128).filter fun i => k.getLsbD i).length

/-- Index of the lowest set bit of a mask, 128 if there is none. -/
def kfirst (k : KWord) : Nat := ((List.range 128).find? fun i => k.getLsbD i).getD 128

/-- Registers of a mask operation with a g register as destination. -/
def useKg (o : Opnd) : Use := ⟨[], [dn o], [], [], [an o], []⟩

/-- KPOPC (R283). -/
def execKpopc (o : Opnd) (s : State) : Host.Outcome State Fault Refusal :=
  meaning o (useKg o) (computeLong o fun s => word (kpopc (s.rk (an o)))) s

/-- KFIRST (R283). -/
def execKfirst (o : Opnd) (s : State) : Host.Outcome State Fault Refusal :=
  meaning o (useKg o) (computeLong o fun s => word (kfirst (s.rk (an o)))) s

/-- KSET (R283). -/
def execKset (o : Opnd) (s : State) : Host.Outcome State Fault Refusal :=
  meaning o ⟨[an o], [], [], [], [], [dn o]⟩ (fun s =>
    (s.kput (dn o) (BitVec.ofNat 128 (2 ^ min (s.rg (an o)).toNat 128 - 1)) o.len, .done)) s

/-! ## Dot products (R288) -/

/-- Sat32 of a part (R95, R97), as the bits of an s32 lane. -/
def sat32 (v : Int) : Nat × Flagset :=
  let r := clampInt (-(2 ^ 31)) (2 ^ 31 - 1) v
  (lowBits 32 r.1, r.2)

/-- The sum of a list of integers. -/
def sumInt (l : List Int) : Int := l.foldl (· + ·) 0

/-- The effect of a dot product whose 32-bit lanes `f` gives from the numbers of a, b and d. -/
def dotBody (o : Opnd) (f : State → Nat → Nat → Nat → List (Nat × Flagset)) (s : State) : State × Act :=
  let rs := f s (s.vn (an o)) (s.vn (bn o)) (s.vn (dn o))
  ((s.addFlags ((rs.map Prod.snd).foldl (· ||| ·) 0)).vput o (joinLanes 32 (rs.map Prod.fst)), .done)

/-- VDOT4 (R288). -/
def execVdot4 (o : Opnd) (s : State) : Host.Outcome State Fault Refusal :=
  meaning o (useV3 o) (dotBody o fun _ x y z => (List.range 32).map fun m =>
    sat32 (intVal 7 (laneAt 32 z m) + sumInt ((List.range 4).map fun j =>
      intVal 5 (laneAt 8 x (4 * m + j)) * intVal 5 (laneAt 8 y (4 * m + j))))) s

/-- A term of an exact sum, as a value. -/
def mulNum (x y : Num) : Num :=
  match x, y with
  | .fin n1 m1 e1, .fin n2 m2 e2 => .fin (n1 != n2) (m1 * m2) (e1 + e2)
  | x, y => .inf (x.neg != y.neg)

/-- The exact sum of values none of which is a NaN, rounded once to f32 (R87, R97). -/
def sumNums (mode : Nat) (l : List Num) : Nat × Flagset :=
  let infs := l.filterMap fun | .inf n => some n | _ => none
  match infs with
  | n :: rest => if rest.all (· == n) then (infBits 0 n, 0) else (canonNan 0, flNv)
  | [] =>
    let fins := l.filterMap fun | .fin n m e => some (n, m, e) | _ => none
    let e := fins.foldl (fun e f => min e f.2.2) 0
    let total := sumInt (fins.map fun f => (if f.1 then -1 else 1) * (f.2.1 * 2 ^ (f.2.2 - e).toNat : Nat))
    let sign := if total = 0 then
        (if fins.all fun f => f.1 && f.2.1 == 0 then true
         else if fins.all fun f => !f.1 && f.2.1 == 0 then false else mode == 4)
      else decide (total < 0)
    roundIeee 0 mode false sign total.natAbs e

/-- One lane of VDOT2 (R87, R288): an invalid product sets `nv` beside a quiet NaN too. -/
def dot2 (mode : Nat) (acc : Num) (pairs : List (Num × Num)) : Nat × Flagset :=
  let ops := acc :: (pairs.map Prod.fst ++ pairs.map Prod.snd)
  let bad (p : Num × Num) := match p.1, p.2 with
    | .inf _, .fin _ 0 _ => true
    | .fin _ 0 _, .inf _ => true
    | _, _ => false
  if pairs.any bad then (canonNan 0, flNv)
  else if ops.any Num.isNan then (canonNan 0, snanFlag ops)
  else sumNums mode (acc :: pairs.map fun p => mulNum p.1 p.2)

/-- VDOT2 (R288). -/
def execVdot2 (o : Opnd) (s : State) : Host.Outcome State Fault Refusal :=
  meaning o (useV3 o) (dotBody o fun s x y z => (List.range 32).map fun m =>
    dot2 s.me.sys.fmode.toNat (decodeNum 0 0 (laneAt 32 z m)) ((List.range 2).map fun j =>
      (decodeNum 1 0 (laneAt 16 x (2 * m + j)), decodeNum 1 0 (laneAt 16 y (2 * m + j))))) s

/-- The two parts of a complex accumulator after the products of `n` lanes of a complex format (R95, R288). -/
def cdotLane (fmt n x y z m : Nat) : List (Nat × Flagset) :=
  let w := laneBits fmt
  let term (f : Int → Int → Int → Int → Int) : Int := sumInt ((List.range n).map fun j =>
    let p := laneAt w x (n * m + j)
    let q := laneAt w y (n * m + j)
    f (partOf fmt false p) (partOf fmt true p) (partOf fmt false q) (partOf fmt true q))
  [sat32 (intVal 7 (laneAt 32 z (2 * m)) + term fun ar ai br bi => ar * br - ai * bi),
   sat32 (intVal 7 (laneAt 32 z (2 * m + 1)) + term fun ar ai br bi => ar * bi + ai * br)]

/-- VCDOT (R288). -/
def execVcdot (o : Opnd) (s : State) : Host.Outcome State Fault Refusal :=
  meaning o (useV3 o) (dotBody o fun _ x y z => (List.range 16).flatMap fun m => cdotLane 14 4 x y z m) s

/-- VCDOT4 (R288). -/
def execVcdot4 (o : Opnd) (s : State) : Host.Outcome State Fault Refusal :=
  meaning o (useV3 o) (dotBody o fun _ x y z => (List.range 16).flatMap fun m => cdotLane 15 8 x y z m) s

end Sys2Proof.Machine
end

