-- ==== Sys2Proof/Machine/Matrix.lean ====
section
/-! DEFINITION. The matrix unit: descriptors, command queues, the arbiter, block steps, drains and the load path (R290 to R315,
R93 to R95). -/

namespace Sys2Proof.Machine

/-! ## Descriptors (R291 to R296, R302) -/

/-- A number read as a signed field of seven bits. -/
def signed7 (n : Nat) : Int := (BitVec.ofNat 7 n).toInt

/-- Bytes of a row of `n` elements. -/
def rowBytes (fmt n : Nat) : Nat := (n * laneBits fmt + 7) / 8

/-- Blocks of 32 that cover `k` products. -/
def blocksOf (k : Nat) : Nat := (k + 31) / 32

/-- An activation descriptor (R292). -/
structure ActDesc where
  addr : Nat
  space : Space
  stride : Nat
  m : Nat
  k : Nat
  scale : Int
  zero : Bool

/-- The fields of an activation descriptor. -/
def actDesc (w : Word) : ActDesc :=
  { addr := bits w 0 20, space := if w.getLsbD 20 then .a else .t, stride := bits w 24 10, m := bits w 34 5 + 1
    k := bits w 39 12 + 1, scale := signed7 (bits w 51 7), zero := bits w 21 3 == 0 && bits w 58 6 == 0 }

/-- A weight descriptor (R293). -/
structure WgtDesc where
  addr : Nat
  n : Nat
  fmt : Nat
  comp : Nat
  scale : Int
  zero : Bool

/-- The fields of a weight descriptor. -/
def wgtDesc (w : Word) : WgtDesc :=
  { addr := bits w 0 18, n := bits w 20 5 + 1, fmt := bits w 25 4, comp := bits w 29 2, scale := signed7 (bits w 32 7)
    zero := bits w 18 2 == 0 && bits w 31 1 == 0 && bits w 39 25 == 0 }

/-- Bytes of a panel (R293, R294). -/
def WgtDesc.panel (d : WgtDesc) : Nat := if d.comp = 1 then 16 * rowBytes d.fmt 32 + 128 else 32 * rowBytes d.fmt 32

/-- An accumulator descriptor (R295). -/
structure AccDesc where
  addr : Nat
  stride : Nat
  rows : Nat
  cols : Nat
  kind : Nat
  zero : Bool

/-- The fields of an accumulator descriptor. -/
def accDesc (w : Word) : AccDesc :=
  { addr := bits w 0 16, stride := bits w 16 12, rows := bits w 28 5 + 1, cols := bits w 33 5 + 1, kind := bits w 38 2
    zero := bits w 40 24 == 0 }

/-- Bytes of an element of C. -/
def AccDesc.size (d : AccDesc) : Nat := if d.kind = 2 then 8 else 4

/-- The address of element (i, j) of C. -/
def AccDesc.at_ (d : AccDesc) (i j : Nat) : Nat := d.addr + 4 * d.stride * i + d.size * j

/-- A drain descriptor (R296). -/
structure DrainDesc where
  addr : Nat
  space : Space
  stride : Nat
  scale : Int
  round : Nat
  sat : Bool
  zero : Bool

/-- The fields of a drain descriptor. -/
def drainDesc (w : Word) : DrainDesc :=
  { addr := bits w 0 20, space := if w.getLsbD 20 then .a else .t, stride := bits w 24 12, scale := signed7 (bits w 36 7)
    round := bits w 43 3, sat := w.getLsbD 46, zero := bits w 21 3 == 0 && bits w 47 17 == 0 }

/-- Bits of a drained element (R296). -/
def drainBits (fmt kind : Nat) : Nat := if fmt = 7 ∧ kind = 2 then 64 else laneBits fmt

/-- Weight storage formats that a compute format allows (R291). -/
def storageOf : Nat → List Nat
  | 1 => [1] | 2 => [2] | 3 => [3, 4] | 5 => [5, 13] | 13 => [13] | 14 => [14, 15] | 15 => [15] | _ => []

/-- The accumulator kind of a compute format (R291). -/
def kindOf (fmt : Nat) : Nat := if fmt ≤ 3 then 0 else if fmt ≤ 13 then 1 else 2

/-- Destination formats of a drain (R304). -/
def drainable : Nat → List Nat
  | 0 => [0, 1, 2, 3] | 1 => [7, 6, 5, 13] | 2 => [7, 14, 15] | _ => []

/-- MATRIX_COMMAND reason 1 (R300). -/
def ActDesc.bad (d : ActDesc) (fmt : Nat) : Bool :=
  !d.zero || d.addr % 16 != 0 || d.stride == 0 || decide (16 * d.stride < rowBytes fmt d.k) || (d.scale != 0 && fmt != 3)

/-- MATRIX_COMMAND reason 2. -/
def WgtDesc.bad (d : WgtDesc) (fmt : Nat) : Bool :=
  !d.zero || d.addr % 128 != 0 || !(storageOf fmt).contains d.fmt || decide (2 ≤ d.comp) ||
  (d.scale != 0 && d.fmt != 3 && d.fmt != 4)

/-- MATRIX_COMMAND reason 3, for the block alone. -/
def AccDesc.bad (d : AccDesc) : Bool :=
  !d.zero || d.kind == 3 || d.addr % d.size != 0 || d.stride == 0 || decide (4 * d.stride < d.size * d.cols)

/-- MATRIX_COMMAND reason 4. -/
def DrainDesc.bad (d : DrainDesc) (fmt : Nat) (a : AccDesc) : Bool :=
  let b := drainBits fmt a.kind
  !d.zero || d.addr % max 1 (b / 8) != 0 || d.stride == 0 || decide (d.stride < (a.cols * b + 7) / 8) ||
  (d.scale != 0 && fmt != 3) || decide (5 ≤ d.round) || !(drainable a.kind).contains fmt || (fmt == 13 && a.cols % 2 == 1)

/-- MATRIX_COMMAND reason 5 (R302). -/
def loadBad (dd da : Word) : Bool :=
  bits dd 18 2 != 0 || bits dd 38 26 != 0 || bits dd 0 18 % 128 != 0 || bits dd 20 18 == 0 || bits dd 20 18 % 128 != 0 ||
  da.toNat % 128 != 0

/-- The format of a command's PX.M payload. -/
def MCmd.fmt (m : MCmd) : Nat := m.mod.toNat / 64

/-- The first MATRIX_COMMAND reason of a command's descriptors, in the order d, a, b (R300). -/
def MCmd.bad (m : MCmd) : Option Nat :=
  let f := m.fmt
  match m.op with
  | .mma _ | .mmac _ =>
    let c := accDesc m.dd
    let a := actDesc m.da
    let b := wgtDesc m.db
    if c.bad || c.kind != kindOf f || c.rows != a.m || c.cols != b.n then some 3
    else if a.bad f then some 1
    else if b.bad f then some 2 else none
  | .mwload => if loadBad m.dd m.da then some 5 else none
  | .mclr => if (accDesc m.da).bad then some 3 else none
  | .mdrain =>
    if (drainDesc m.dd).bad f (accDesc m.da) then some 4 else if (accDesc m.da).bad then some 3 else none

/-- A range of a command: space, lowest byte, number of bytes, and whether it is written. -/
abbrev MRange := Space × Nat × Nat × Bool

/-- The ranges of a command in the order of R300. -/
def MCmd.ranges (m : MCmd) : List MRange :=
  let block (c : AccDesc) (w : Bool) : MRange := (.c, c.addr, 4 * c.stride * (c.rows - 1) + c.size * c.cols, w)
  match m.op with
  | .mma _ | .mmac _ =>
    let a := actDesc m.da
    let b := wgtDesc m.db
    [(a.space, a.addr, 16 * a.stride * (a.m - 1) + rowBytes m.fmt a.k, false), (.w, b.addr, b.panel * blocksOf a.k, false),
      block (accDesc m.dd) true]
  | .mwload => [(.w, bits m.dd 0 18, bits m.dd 20 18, true), (.d, m.da.toNat, bits m.dd 20 18, false)]
  | .mclr => [block (accDesc m.da) true]
  | .mdrain =>
    let c := accDesc m.da
    let d := drainDesc m.dd
    [block c false, (d.space, d.addr, d.stride * (c.rows - 1) + (c.cols * drainBits m.fmt c.kind + 7) / 8, true)]

/-- The memory fault of a command's ranges (R300 step 2). -/
def MCmd.rangeFault (m : MCmd) : Option (Cause × Word) :=
  (m.ranges.filterMap fun r => engineRange r.1 r.2.1 r.2.2.1 0 r.2.2.2).head?

/-! ## Issue (R297, R300) -/

/-- The matrix queue of a core changed. -/
def State.modMq (s : State) (t c : Nat) (f : MQueue → MQueue) : State := s.modCore t c fun k => { k with mq := f k.mq }

/-- The flags of the PX.M payload: quire tag, quire, event, quoin. -/
def MCmd.tag (m : MCmd) : Bool := m.mod.getLsbD 5
def MCmd.quire (m : MCmd) : Nat := m.mod.toNat / 4 % 8
def MCmd.event (m : MCmd) : Bool := m.mod.getLsbD 1
def MCmd.quoin (m : MCmd) : Bool := m.mod.getLsbD 0

/-- Issue of a command with the descriptors given (R300): the context's earlier accesses come before the command's (R123). -/
def issueMatrix (o : Opnd) (op : MOp) (dd da db : Word) (s : State) : State × Act :=
  let t := s.cur.tile
  let c := s.cur.core
  let q := s.myCore.mq
  let m : MCmd :=
    { ident := q.next, op := op, mod := o.mod, dd := dd, da := da, db := db, ctx := s.cur.ctx, live := true, cancel := false, bkey := s.myKey
      rnd := s.me.sys.fmode }
  let bad (r : Nat) : Act := .trap .matrixCommand (infoE 5 c r q.next.toNat)
  match m.bad with
  | some r => (s, bad r)
  | none =>
    if m.tag && !(s.quire t m.quire).takes 12 then (s, bad 6)
    else match m.rangeFault with
      | some (k, i) => (s, .trap k i)
      | none =>
        let quoins : List Quoin := if m.quoin then (m.ranges.filter fun r => r.1 != .d).map fun r =>
            { space := r.1, core := if r.1 == .t then 0 else c, base := r.2.1, len := r.2.2.1, dst := r.2.2.2, issuer := c
              engine := 5, chan := c, ident := q.next } else []
        if s.awaitsOutside s.cur then (s, .wait (.fence 2 3))
        else if 8 ≤ q.cmds.length then (s, .wait .matrixQueue)
        else if m.event && !s.myCore.evq.hasRoom then (s, .trap .eventOverflow (word (5 + 256 * c)))
        else if s.myTile.freeQuoins.length < quoins.length then (s, .stall)
        else
          let s := if m.event then s.reserveEvent t c else s
          let s := s.addQuoins t quoins
          let s := if m.tag then s.modQuire t m.quire fun k => { k with tagged := k.tagged + 1 } else s
          (s.modMq t c fun q => { q with cmds := q.cmds ++ [m], next := q.next + 1 }, .done)

/-- Registers of a product. -/
def useMma (o : Opnd) : Use := .g [dn o, an o, bn o] []

/-- The effect of a product. -/
def mmaBody (o : Opnd) (op : MOp) (s : State) : State × Act := issueMatrix o op (s.rg (dn o)) (s.rg (an o)) (s.rg (bn o)) s

/-- MMA (R301). -/
def execMma (o : Opnd) (s : State) : Host.Outcome State Fault Refusal := meaning o (useMma o) (mmaBody o (.mma false)) s

/-- MMA.Z (R301). -/
def execMmaZ (o : Opnd) (s : State) : Host.Outcome State Fault Refusal := meaning o (useMma o) (mmaBody o (.mma true)) s

/-- MMAC (R301). -/
def execMmac (o : Opnd) (s : State) : Host.Outcome State Fault Refusal := meaning o (useMma o) (mmaBody o (.mmac false)) s

/-- MMAC.Z (R301). -/
def execMmacZ (o : Opnd) (s : State) : Host.Outcome State Fault Refusal := meaning o (useMma o) (mmaBody o (.mmac true)) s

/-- MWLOAD (R302). -/
def execMwload (o : Opnd) (s : State) : Host.Outcome State Fault Refusal :=
  meaning o (.g [dn o, an o] []) (fun s => issueMatrix o .mwload (s.rg (dn o)) (s.rg (an o)) 0 s) s

/-- MCLR (R303). -/
def execMclr (o : Opnd) (s : State) : Host.Outcome State Fault Refusal :=
  meaning o (.g [an o] []) (fun s => issueMatrix o .mclr 0 (s.rg (an o)) 0 s) s

/-- MDRAIN (R304). -/
def execMdrain (o : Opnd) (s : State) : Host.Outcome State Fault Refusal :=
  meaning o (.g [dn o, an o] []) (fun s => issueMatrix o .mdrain (s.rg (dn o)) (s.rg (an o)) 0 s) s

/-- MWAIT (R305). -/
def execMwait (o : Opnd) (s : State) : Host.Outcome State Fault Refusal :=
  meaning o (.g [an o] []) (fun s =>
    let q := s.myCore.mq
    let n : BitVec 32 := (s.rg (an o)).setWidth 32
    if outstanding q.done q.next n then (s, .wait (.matrixDone s.cur.core n)) else (s, .done)) s

/-- MSTAT (R306). -/
def execMstat (o : Opnd) (s : State) : Host.Outcome State Fault Refusal :=
  meaning o (.g [] [dn o]) (compute o fun s =>
    let q := s.myCore.mq
    q.done.setWidth 64 ||| (q.next.setWidth 64 <<< 32)) s

/-- The arbiter of a tile changed. -/
def State.modArbiter (s : State) (t : Nat) (f : MArbiter → MArbiter) : State :=
  s.modEng t fun e => { e with arbiter := f e.arbiter }

/-- MWRR (R307): only a gang's leader sets the weights. -/
def execMwrr (o : Opnd) (s : State) : Host.Outcome State Fault Refusal :=
  meaning o .none (privileged (.mwrr o) State.supervisor (.g [an o] []) fun s =>
    let v := s.rg (an o)
    let ws := (List.range 4).map fun i => bits v (8 * i) 8
    if ws.contains 0 || bits v 32 32 != 0 then (s, .trap .matrixCommand (infoE 5 s.cur.core 7 s.myCore.mq.next.toNat))
    else if s.isFollower then (s, .done)
    else (s.modArbiter s.cur.tile fun a => { a with weights := ws, fresh := true }, .done)) s

/-! ## Block steps (R93 to R95, R301) -/

/-- A product of values with its exponent. -/
def productOf (p : Num × Num) : Num := mulNum p.1 p.2

/-- 0 × ∞. -/
def badProduct (p : Num × Num) : Bool :=
  match p.1, p.2 with
  | .inf _, .fin _ 0 _ => true
  | .fin _ 0 _, .inf _ => true
  | _, _ => false

/-- The exact sum of one block's products as a value, and the flags it raises (R93, R94, R309). -/
def blockSum (ps : List (Num × Num)) : Num × Flagset :=
  let nar : Flagset := if ps.any fun p => p.1 == .nar || p.2 == .nar then flNar else 0
  if ps.any fun p => p.1.isNan || p.2.isNan || badProduct p then (.nan false, nar ||| flNv)
  else
    let ts := ps.map productOf
    let infs := ts.filterMap fun | .inf n => some n | _ => none
    match infs with
    | n :: rest => if rest.all (· == n) then (.inf n, 0) else (.nan false, flNv)
    | [] =>
      let fins := ts.filterMap fun | .fin n m e => some (n, m, e) | _ => none
      let e := fins.foldl (fun e f => min e f.2.2) 0
      let total := sumInt (fins.map fun f => (if f.1 then -1 else 1) * (f.2.1 * 2 ^ (f.2.2 - e).toNat : Nat))
      if total = 0 then (.fin (fins.all fun f => f.1 && f.2.1 == 0) 0 0, 0)
      else (.fin (decide (total < 0)) total.natAbs e, 0)

/-- An f32 accumulator after a block (R93, R94). -/
def floatStep (old : Nat) (ps : List (Num × Num)) : Nat × Flagset :=
  let b := blockSum ps
  let r := encodeNum 0 1 0 .vcvt b.1
  let a := fAddNum 0 1 (decodeNum 0 0 old) (decodeNum 0 0 r.1)
  (a.1, b.2 ||| r.2 ||| a.2)

/-- An s32 accumulator after a block (R95). -/
def intStep (old : Nat) (ps : List (Int × Int)) : Nat × Flagset := sat32 (intVal 7 old + sumInt (ps.map fun p => p.1 * p.2))

/-- The parts of a complex accumulator after a block (R95). -/
def complexStep (re im : Nat) (ps : List ((Int × Int) × (Int × Int))) : (Nat × Nat) × Flagset :=
  let x := sat32 (intVal 7 re + sumInt (ps.map fun p => p.1.1 * p.2.1 - p.1.2 * p.2.2))
  let y := sat32 (intVal 7 im + sumInt (ps.map fun p => p.1.1 * p.2.2 + p.1.2 * p.2.1))
  ((x.1, y.1), x.2 ||| y.2)

/-- Element (r, j) of a panel whose bytes are `raw` (R293, R294). -/
def WgtDesc.element (d : WgtDesc) (raw r j : Nat) : Nat :=
  let b := laneBits d.fmt
  let row := rowBytes d.fmt 32
  let value (v : Nat) : Nat := laneAt b (raw / 256 ^ (row * v)) j
  if d.comp = 1 then
    let g := r / 4
    let nib := raw / 256 ^ (16 * row + 16 * g + j / 2) / 16 ^ (j % 2) % 16
    if nib / 4 = r % 4 then value (2 * g + 1) else if nib % 4 = r % 4 then value (2 * g) else 0
  else value r

/-- A write of a step. -/
abbrev MWrite := Nat × Nat × Nat

/-- What a step of the head command comes to: its writes (space, address, bytes and value) and flags, or a data error. -/
inductive MStep where
  | ok (sp : Space) (writes : List MWrite) (flags : Flagset)
  | bad (f : EngFault)

/-- The first data error of some ranges of a core. -/
def State.firstBad (s : State) (t c : Nat) (key : BitVec 56) (rs : List (Space × Nat × Nat)) : Option EngFault :=
  ((rs.filterMap fun r => s.badLocal t c r.1 key r.2.1 r.2.2).head?).map fun u => ⟨u, .localEcc⟩

/-- A step of a product at K block `pos` (R301). -/
def State.mmaStep (s : State) (t c : Nat) (m : MCmd) (z : Bool) (pos : Nat) : MStep :=
  let a := actDesc m.da
  let b := wgtDesc m.db
  let d := accDesc m.dd
  let f := m.fmt
  let ab := laneBits f
  let kn := min 32 (a.k - 32 * pos)
  let rowAt (i : Nat) : Nat := a.addr + 16 * a.stride * i + 32 * pos * ab / 8
  let panel := b.addr + b.panel * pos
  let clear := z && pos == 0
  let cRows := if clear then [] else (List.range d.rows).map fun i => (Space.c, d.at_ i 0, d.size * d.cols)
  match s.firstBad t c m.bkey ((List.range a.m).map (fun i => (a.space, rowAt i, rowBytes f kn)) ++ [(.w, panel, b.panel)] ++ cRows) with
  | some e => .bad e
  | none =>
    let raw := s.readLocal t c .w m.bkey panel b.panel
    let xs := (List.range a.m).map fun i =>
      let v := s.readLocal t c a.space m.bkey (rowAt i) (rowBytes f kn)
      (List.range kn).map fun k => laneAt ab v k
    let ys := (List.range b.n).map fun j => (List.range kn).map fun k => b.element raw k j
    let c4 (p : Nat) : Nat := if clear then 0 else s.readLocal t c .c m.bkey p 4
    let cells := (xs.mapIdx fun i x => ys.mapIdx fun j y => (d.at_ i j, x, y)).flatten
    let rs : List (List MWrite × Flagset) := cells.map fun e =>
      if d.kind = 0 then
        let r := floatStep (c4 e.1) (List.zip (e.2.1.map (decodeNum f a.scale)) (e.2.2.map (decodeNum b.fmt b.scale)))
        ([(e.1, 4, r.1)], r.2)
      else if d.kind = 1 then
        let r := intStep (c4 e.1) (List.zip (e.2.1.map (intVal f)) (e.2.2.map (intVal b.fmt)))
        ([(e.1, 4, r.1)], r.2)
      else
        let part (g : Nat) (v : Nat) : Int × Int := (partOf g false v, partOf g true v)
        let r := complexStep (c4 e.1) (c4 (e.1 + 4)) (List.zip (e.2.1.map (part f)) (e.2.2.map (part b.fmt)))
        ([(e.1, 4, r.1.1), (e.1 + 4, 4, r.1.2)], r.2)
    .ok .c (rs.flatMap Prod.fst) ((rs.map Prod.snd).foldl (· ||| ·) 0)

/-- The step of an MCLR (R303). -/
def mclrStep (m : MCmd) : MStep :=
  let d := accDesc m.da
  .ok .c ((List.range d.rows).flatMap fun i => (List.range d.cols).map fun j => (d.at_ i j, d.size, 0)) 0

/-- The bits that a drained element takes (R304). -/
def drainValue (m : MCmd) (kind re im : Nat) : Nat × Flagset :=
  let d := drainDesc m.dd
  let mode := roundMode d.round m.rnd
  match kind with
  | 0 => convert 0 m.fmt mode 0 d.scale (if d.sat then .on else .vcvt) re
  | 1 => convert 7 m.fmt mode 0 0 .vcvt re
  | _ =>
    if m.fmt = 7 then (re + 2 ^ 32 * im, 0)
    else
      let w := partBits m.fmt
      let x := clampInt (intLo w true) (intHi w true) (intVal 7 re)
      let y := clampInt (intLo w true) (intHi w true) (intVal 7 im)
      (lowBits w x.1 + 2 ^ w * lowBits w y.1, x.2 ||| y.2)

/-- The step of an MDRAIN (R304): a row's elements together. -/
def State.drainStep (s : State) (t c : Nat) (m : MCmd) : MStep :=
  let a := accDesc m.da
  let d := drainDesc m.dd
  match s.firstBad t c m.bkey ((List.range a.rows).map fun i => (Space.c, a.at_ i 0, a.size * a.cols)) with
  | some e => .bad e
  | none =>
    let b := drainBits m.fmt a.kind
    let c4 (p : Nat) : Nat := s.readLocal t c .c m.bkey p 4
    let rs : List (MWrite × Flagset) := (List.range a.rows).map fun i =>
      let vs := (List.range a.cols).map fun j => drainValue m a.kind (c4 (a.at_ i j)) (c4 (a.at_ i j + 4))
      ((d.addr + d.stride * i, (a.cols * b + 7) / 8, joinLanes b (vs.map Prod.fst)), (vs.map Prod.snd).foldl (· ||| ·) 0)
    .ok d.space (rs.map Prod.fst) ((rs.map Prod.snd).foldl (· ||| ·) 0)

/-- The next step of a command. -/
def State.stepOf (s : State) (t c : Nat) (m : MCmd) (pos : Nat) : MStep :=
  match m.op with
  | .mma z | .mmac z => s.mmaStep t c m z pos
  | .mclr => mclrStep m
  | .mdrain => s.drainStep t c m
  | .mwload => .ok .w [] 0

/-- Steps, or tokens, of a command. -/
def MCmd.steps (m : MCmd) : Nat :=
  match m.op with
  | .mma _ | .mmac _ => blocksOf (actDesc m.da).k
  | .mclr | .mdrain => 1
  | .mwload => bits m.dd 20 18 / 128

/-- A queue whose head has performed one more step. -/
def MQueue.advance (q : MQueue) (m : MCmd) (f : Flagset) : MQueue :=
  let flags := q.flags ||| f
  { q with
    pos := q.pos + 1
    flags := flags
    ending := if m.steps ≤ q.pos + 1 then some ⟨0, word (flags.toNat + 2 ^ 32 * (q.pos + 1))⟩ else none }

/-! ## The arbiter and the load path (R298) -/

/-- The head command of a queue that may go on. -/
def MQueue.active (q : MQueue) : Option MCmd :=
  if q.held || q.fault.isSome || q.ending.isSome then none else q.cmds.head?.filter fun m => !m.cancel

/-- A command of the load path. -/
def MCmd.isLoad (m : MCmd) : Bool := m.op == .mwload

/-- The queue has an array step ready. -/
def MQueue.ready (q : MQueue) : Bool := match q.active with | some m => !m.isLoad | none => false

/-- The arbiter's turns (R298): the queue that it picks, with the current queue and credit that follow. -/
def arbitrate (ready : Nat → Bool) (w : List Nat) : Nat → Nat → Nat → Option Nat × Nat × Nat
  | 0, cur, credit => (none, cur, credit)
  | n + 1, cur, credit =>
    if ready cur && decide (0 < credit) then (some cur, cur, credit - 1)
    else arbitrate ready w n ((cur + 1) % 4) (w.getD ((cur + 1) % 4) 0)

/-- A step boundary: the arbiter's choice and the state with the arbiter moved. -/
def State.arbiterTurn (s : State) (t : Nat) : State × Option Nat :=
  let a := (s.tile t).eng.arbiter
  if s.unitHeld t 5 0x10 then (s, none)
  else
  let credit := if a.fresh then a.weights.getD a.cur 0 else a.credit
  let r := arbitrate (fun c => (s.core t c).mq.ready) a.weights 4 a.cur credit
  (s.modArbiter t fun a => { a with cur := r.2.1, credit := r.2.2, fresh := false }, r.1)

/-- The state with a step's writes performed, in order. -/
def State.matrixWrites (s : State) (t c : Nat) (sp : Space) (key : BitVec 56) (ws : List MWrite) : State :=
  ws.foldl (fun s w => s.writeLocal t c sp key w.1 w.2.1 w.2.2) s

/-- MATRIX_STEP (R298, R301): the arbiter picks a queue and performs one step of its head command. -/
def execMatrixStep (t : Nat) (s : State) : Host.Outcome State Fault Refusal :=
  match s.arbiterTurn t with
  | (s', none) => .next s'
  | (s', some c) =>
    match (s.core t c).mq.active with
    | none => .next s
    | some m =>
      match s.stepOf t c m (s.core t c).mq.pos with
      | .bad _ => .next s
      | .ok sp ws f => .next ((s'.matrixWrites t c sp m.bkey ws).modMq t c fun q => q.advance m f)

/-- The queue whose MWLOAD the load path serves next (R298). -/
def State.nextLoad (s : State) (t : Nat) : Option (Nat × MCmd) :=
  let from_ := (s.tile t).eng.arbiter.loader
  ([1, 2, 3, 4].filterMap fun i =>
    let c := (from_ + i) % 4
    match (s.core t c).mq.active with
    | some m => if m.isLoad then some (c, m) else none
    | none => none).head?

/-- The holder of a core's MWLOAD reads in the translation node. -/
def loadHolder (c : Nat) : Nat := 80 + c

/-- The next token of the load path: its queue, command and address, and its read. -/
def State.loadToken (s : State) (t : Nat) : Option (Nat × MCmd × Nat × (State × EngRead)) :=
  (s.nextLoad t).map fun p =>
    let va := p.2.da.toNat + 128 * (s.core t p.1).mq.pos
    (p.1, p.2, va, s.engRead t (loadHolder p.1) va 128)

/-- MWLOAD_TOKEN (R302): one token from D into W. -/
def execMwloadToken (t : Nat) (s : State) : Host.Outcome State Fault Refusal :=
  match s.loadToken t with
  | some (c, m, _, (s', .value v)) =>
    let s' := (s'.dropRemote t (loadHolder c)).writeLocal t c .w m.bkey (bits m.dd 0 18 + 128 * (s.core t c).mq.pos) 128 v
    .next ((s'.modMq t c fun q => q.advance m 0).modArbiter t fun a => { a with loader := c })
  | some (_, _, _, (s', .pending)) => .next s'
  | some (_, _, _, (_, .fault _)) | none => .next s

/-- MATRIX_OPERAND (R312): a translation or access fault withholds the token and holds the command; the issuing core is told. -/
def execMatrixOperand (t c : Nat) (s : State) : Host.Outcome State Fault Refusal :=
  match s.loadToken t with
  | some (c', m, va, (s', .fault k)) =>
    if c' = c ∧ k.withholds then
      let s' := s'.modMq t c fun q => { q with fault := some (va, k) }
      let s' := s'.modArbiter t fun a => { a with loader := c }
      .next ((s'.withhold t 5 c c m.ident va k).notify t c .matrixOperand (infoE 5 c ((s.core t c).mq.pos % 65536) m.ident.toNat))
    else .next s
  | some (_, _, _, (_, .value _)) | some (_, _, _, (_, .pending)) | none => .next s

/-- A data error ends the head command (R313). -/
def MQueue.dataError (q : MQueue) (f : EngFault) : MQueue :=
  { q with ending := some ⟨BitVec.ofNat 16 (0x8000 + f.cause.code), faultDetail f.va f.cause⟩ }

/-- MATRIX_DATA_ERROR (R313): an operand that cannot be read ends the command, with no further write. -/
def execMatrixDataError (t c : Nat) (s : State) : Host.Outcome State Fault Refusal :=
  let array : Option State := match s.arbiterTurn t with
    | (s', some c') => if c' = c then
        match (s.core t c).mq.active with
        | some m => match s.stepOf t c m (s.core t c).mq.pos with
          | .bad f => some ((s'.modMq t c (·.dataError f)).strikeFor t f.cause)
          | .ok _ _ _ => none
        | none => none
      else none
    | (_, none) => none
  let load : Option State := match s.loadToken t with
    | some (c', _, va, (s', .fault k)) =>
      if c' = c ∧ !k.withholds then some (((s'.modMq t c (·.dataError ⟨va, k⟩)).modArbiter t fun a => { a with loader := c }).strikeFor t k)
        else none
    | some (_, _, _, (_, .value _)) | some (_, _, _, (_, .pending)) | none => none
  .next ((array <|> load).getD s)

/-! ## Completion (R308, R309) -/

/-- A command of a core completes with a status and a detail, in the order of R308: its quoin entries go, the flags that it collected are
merged, `leave` takes it from the queue, its record is written and its arrival made. -/
def State.settleCommand (s : State) (t c : Nat) (m : MCmd) (flags : BitVec 7) (e : Ending) (leave : State → State) : State :=
  let s := s.dropQuoins t c 5 c m.ident
  let s := if m.live then s.modCtx ⟨t, c, m.ctx⟩ fun k =>
      { k with sys := { k.sys with mstat := k.sys.mstat ||| flags.setWidth 64 } } else s
  let s := leave s
  let s := if m.event then s.deliver t c (mkRecord 5 c e.status m.ident e.detail) else s
  s.tagArrive t m.tag m.quire 12

/-- The completion of a core's head command. -/
def State.matrixComplete (s : State) (t c : Nat) (m : MCmd) (e : Ending) : State :=
  s.settleCommand t c m (s.core t c).mq.flags e fun s =>
    let s := s.modMq t c fun q => { q with done := m.ident + 1, cmds := q.cmds.tail, pos := 0, flags := 0, ending := none, fault := none }
    (s.modXnode t fun x => { x with pins := x.pins.erase (loadHolder c) }).dropRemote t (loadHolder c)

/-- The commands that a queue was rebuilt without complete with status 0x4000, as far as their banks have room (R256, R314). -/
def State.completeLeft (t c : Nat) : List (MCmd × BitVec 7) → State → State
  | [], s => s
  | m :: rest, s =>
    if s.bankRoom t m.1.tag m.1.quire 12 then
      State.completeLeft t c rest (s.settleCommand t c m.1 m.2 .cancelled fun s => s.modMq t c fun q => { q with dropped := rest })
    else s

/-- How the head command of a queue is to complete, if it is to (R308, R314). -/
def MQueue.outcome (q : MQueue) : Option Ending :=
  match q.cmds with
  | m :: _ => if m.cancel then some .cancelled else q.ending
  | [] => none

/-- MATRIX_COMMAND_COMPLETE (R308): a full bank holds it (R256). Those that the queue was rebuilt without come first (R314). -/
def execMatrixCommandComplete (t c : Nat) (s : State) : Host.Outcome State Fault Refusal :=
  let q := (s.core t c).mq
  match q.dropped with
  | _ :: _ => .next (State.completeLeft t c q.dropped s)
  | [] => match q.cmds, q.outcome with
    | m :: _, some e => .next (if s.bankRoom t m.tag m.quire 12 then s.matrixComplete t c m e else s)
    | _, _ => .next s

end Sys2Proof.Machine
end

