-- ==== Sys2Proof/Machine/Stream.lean ====
section
/-! DEFINITION. Stream units (R216 to R225): binding, ending and testing a stream, its reads, its write rounds and its faults. -/

namespace Sys2Proof.Machine

/-- Channel of a stream unit in event records and `%einfo` (R220, R221). -/
def streamChan (unit : Nat) : Nat := 0x10 + unit

/-- Holder of a stream unit's translations, as `Xnode.pins` numbers holders. -/
def streamHolder (c unit : Nat) : Nat := 16 + 16 * c + unit

/-- The state with a binding changed. -/
def State.modBinding (s : State) (t c unit : Nat) (f : Binding → Binding) : State := s.modCore t c fun k => k.modBinding unit f

/-- The binding of a stream unit. -/
def State.bindingAt (s : State) (t c unit : Nat) : Option Binding := ((s.core t c).stream unit).bind

/-! ## Pattern descriptors (R217, R220) -/

/-- The pattern that a 64-byte descriptor holds. -/
def patternOf (v : Nat) : Pattern :=
  let base := word (field v 0 8)
  let ctl := field v 56 4
  let step (i : Nat) : Int := (word (field v (24 + 8 * i) 8)).toInt
  { base := bits base 0 57, space := spaceOf (bits base 57 3), core := bits base 60 2
    lens := [field v 8 4, field v 12 4, field v 16 4, field v 20 4]
    steps := [step 0, step 1, step 2, step 3]
    fmt := ctl % 16, stopMask := BitVec.ofNat 4 (ctl / 16), seg := ctl / 256 % 2 == 1, quoin := ctl / 512 % 2 == 1
    ev := ctl / 1024 % 2 == 1, segbase := field v 60 4 % 2 ^ 20 }

/-- The offset of the first bad field of a pattern descriptor (R217, R218, R220 step 2). -/
def patternCheck (v : Nat) (vector : Bool) : Option Nat :=
  let p := patternOf v
  let base := word (field v 0 8)
  let sp := bits base 57 3
  let ctl := field v 56 4
  let seg := field v 60 4
  let badStep (i : Nat) : Bool :=
    let d := p.steps.getD i 0
    !stepOk d || (vector && d % 128 != 0)
  if 6 ≤ sp ∨ (bits base 60 2 ≠ 0 ∧ (sp = 0 ∨ sp = 4)) ∨ bits base 62 2 ≠ 0 ∨ (vector ∧ p.base % 128 ≠ 0) then some 0
  else if p.seg ∧ 1 < field v 16 4 then some 16
  else if p.seg ∧ 1 < field v 20 4 then some 20
  else match (List.range 4).find? badStep with
    | some i => some (24 + 8 * i)
    | none =>
      if p.fmt = 13 ∨ (vector ∧ p.fmt ≠ 0) ∨ 2048 ≤ ctl then some 56
      else if 2 ^ 20 ≤ seg ∨ (p.seg ∧ seg % 4 ≠ 0) then some 60
      else none

/-- The spaces that a stream may reach (R102, R220). -/
def streamSpace (vector write : Bool) : Space → Bool
  | .t | .a | .d => true
  | .w => write
  | .c => vector && !write
  | .x => false

/-- The memory fault of a binding (R220 steps 3 and 4). -/
def Pattern.fault (p : Pattern) (vector write : Bool) : Option (Cause × Word) :=
  let size := p.size vector
  let code := sizeCode size
  if !streamSpace vector write p.space then some (.bufferEngine, infoM p.base p.space.code code write)
  else
    let seg := if p.seg then (rangeFault .t p.segbase (4 * p.runs)).map fun c => (c, infoM p.segbase 0 2 false) else none
    match seg, p.bounds vector with
    | some f, _ => some f
    | none, none => none
    | none, some (lo, n) =>
      match engineRange p.space lo n code write with
      | some f => some f
      | none =>
        (if p.seg then (if p.base % size = 0 then none else some (p.base : Int)) else misaligned p.base size p.dims p.steps).map
          fun a => (.align, infoM (lowBits 57 a) p.space.code code write)

/-- The quoin entry of a binding (R220 step 6). -/
def Pattern.quoinEntry (p : Pattern) (vector write : Bool) (c unit : Nat) (ident : BitVec 32) : List Quoin :=
  if !p.quoin || p.space == .d then []
  else match p.bounds vector with
    | none => []
    | some (lo, n) =>
      let lo := lo.toNat
      let r := if !p.seg then (lo, n) else if 0 ≤ p.steps.getD 0 0 then (lo, p.space.size - lo) else (0, lo + n)
      [{ space := p.space, core := p.core, base := r.1, len := r.2, dst := write, issuer := c, engine := 1
         chan := streamChan unit, ident := ident }]

/-! ## Ending a binding (R221) -/

/-- A binding may end: a write binding's elements have come and are performed, and its acknowledgements are in (R124, R128, R221). -/
def State.canUnbind (s : State) (t c unit : Nat) (b : Binding) : Bool :=
  !b.write || (b.open_.isEmpty && s.owedAcks t c (32 + unit) == 0 && !s.opOutside t (streamHolder c unit) &&
    !(s.ctx ⟨t, c, b.owner⟩).flights.any fun f => match f.dest with
      | .g n => decide (unit < 8) && n == unit + 8
      | .v n => decide (8 ≤ unit) && n == unit + 16
      | .k _ => false)

/-- A binding ends with a status and a detail, as R210 but for its step 2. -/
def State.endBinding (s : State) (t c unit : Nat) (b : Binding) (e : Ending) : State :=
  let s := s.dropQuoins t c 1 (streamChan unit) b.ident
  let s := s.modCore t c fun k => k.setStream unit { k.stream unit with bind := none }
  let s := (s.modXnode t fun x => { x with pins := x.pins.erase (streamHolder c unit) }).dropRemote t (streamHolder c unit)
  if b.pat.ev then s.deliver t c (mkRecord 1 (streamChan unit) e.status b.ident e.detail) else s

/-- How a binding that is unbound completes: with the count of its elements, or with the first data error that it met. -/
def Binding.outcome (b : Binding) : Ending := b.ending.getD ⟨0, word (2 ^ 32 * (b.count % 2 ^ 32))⟩

/-- SUNBIND of a unit that its context holds. -/
def State.unbind (s : State) (t c unit : Nat) (b : Binding) : State := s.endBinding t c unit b b.outcome

/-! ## SBIND and its forms (R216, R220) -/

/-- A binding as SBIND makes it; a segmented write binding stands at its first run that holds an element. -/
def newBinding (owner : Nat) (write : Bool) (p : Pattern) (bkey : BitVec 56) (ident : BitVec 32) : Binding :=
  { owner := owner, write := write, pat := p, bkey := bkey, ident := ident, count := 0, next := 0, run := 0, inRun := 0, runLen := none
    buf := [], ended := false, open_ := [], held := false, fault := none, voided := false, ending := none }

/-- The checks of R220 and the binding. -/
def sbindNew (o : Opnd) (vector write : Bool) (s : State) : State × Act :=
  let t := s.cur.tile
  let c := s.cur.core
  let unit := unitOf vector (dn o)
  let a := (s.rg (an o)).toNat
  match descFault a 64 <|> s.descHit a 64 <|> (s.badLocal t c .t noKey a 64).map fun u => (.localEcc, infoM u 0 3 false) with
  | some (e, i) => (s, .trap e i)
  | none =>
    let v := s.readLocal t c .t noKey a 64
    match patternCheck v vector with
    | some off => (s, .trap .copyDescriptor (infoE 1 (streamChan unit) off 0))
    | none =>
      let p := patternOf v
      match p.fault vector write with
      | some (e, i) => (s, .trap e i)
      | none =>
        if s.awaitsOutside s.cur then (s, .wait (.fence 2 3))
        else if p.ev && !s.myCore.evq.hasRoom then (s, .trap .eventOverflow (word (1 + 256 * streamChan unit)))
        else
          let ident := (s.myCore.stream unit).nbind + 1
          let quoins := p.quoinEntry vector write c unit ident
          if s.myTile.freeQuoins.length < quoins.length then (s, .stall)
          else
            let b := newBinding s.cur.ctx write p s.myKey ident
            let b := { b with held := s.unitHeld t 1 (0x40 + 16 * c + unit) }
            let b' := if write && p.seg then b.seek (s.segLen t b) 0 else b
            let s := if p.ev then s.reserveEvent t c else s
            let s := (s.addQuoins t quoins).strikeNew t b b'
            (s.modMyCore fun k => k.setStream unit
              { bind := some b', nbind := ident, cancelled := (k.stream unit).cancelled.filter (· != s.cur.ctx) }, .done)

/-- SBIND of a unit: it waits for another context's, and ends the context's own first (R216). -/
def sbindBody (o : Opnd) (vector write : Bool) (s : State) : State × Act :=
  let t := s.cur.tile
  let c := s.cur.core
  let unit := unitOf vector (dn o)
  match s.bindingAt t c unit with
  | none => sbindNew o vector write s
  | some b =>
    if b.owner ≠ s.cur.ctx then (s, .wait (.streamFree unit))
    else if s.canUnbind t c unit b then sbindNew o vector write (s.unbind t c unit b)
    else (s, .wait (.streamFlush (some unit)))

/-- SBIND (R220). -/
def execSbind (o : Opnd) (s : State) : Host.Outcome State Fault Refusal := meaning o (.g [an o] []) (sbindBody o false false) s

/-- SBINDW (R220). -/
def execSbindw (o : Opnd) (s : State) : Host.Outcome State Fault Refusal := meaning o (.g [an o] []) (sbindBody o false true) s

/-- SBINDV (R220). -/
def execSbindv (o : Opnd) (s : State) : Host.Outcome State Fault Refusal := meaning o (.g [an o] []) (sbindBody o true false) s

/-- SBINDVW (R220). -/
def execSbindvw (o : Opnd) (s : State) : Host.Outcome State Fault Refusal := meaning o (.g [an o] []) (sbindBody o true true) s

/-! ## SUNBIND, SSTAT, BSTOP and SSKIP (R221 to R223) -/

/-- The register number of field a is a vector register's. -/
def aVector (o : Opnd) : Bool := decide (24 ≤ an o)

/-- The binding that the context under way holds of the register of field a. -/
def State.aBinding (s : State) (o : Opnd) : Option Binding := s.myCore.binding s.cur.ctx (aVector o) (an o)

/-- SUNBIND (R221). -/
def execSunbind (o : Opnd) (s : State) : Host.Outcome State Fault Refusal :=
  meaning o .none (fun s =>
    let t := s.cur.tile
    let c := s.cur.core
    let unit := unitOf (aVector o) (an o)
    match s.aBinding o with
    | none => (s, .trap .streamUnbound (streamInfo (aVector o) (an o) 0))
    | some b => if s.canUnbind t c unit b then (s.unbind t c unit b, .done) else (s, .wait (.streamFlush (some unit)))) s

/-- Elements or tokens that stand in a read stream's buffer. -/
def Binding.buffered (b : Binding) : Nat :=
  (b.buf.filter fun i => match i with | .elem _ | .bad _ _ => true | .stop _ | .terminal => false).length

/-- The status of a binding (R222). -/
def Binding.status (b : Binding) (vector : Bool) : Word :=
  let head : Nat × Nat × Bool := match b.buf with
    | .stop l :: _ => (1, l, false)
    | .terminal :: _ => (1, 3, true)
    | .elem _ :: _ | .bad _ _ :: _ | [] => (0, 0, b.write && b.exhausted)
  word (1 + 2 * b.write.toNat + 4 * vector.toNat + 8 * (b.held || b.fault.isSome).toNat + 16 * head.1 + 32 * head.2.1
    + 128 * head.2.2.toNat + 256 * min 255 b.buffered + 2 ^ 32 * (b.count % 2 ^ 32))

/-- SSTAT (R222): single-cycle, and never a trap. -/
def execSstat (o : Opnd) (s : State) : Host.Outcome State Fault Refusal :=
  meaning o (.g [] [dn o]) (compute o fun s => match s.aBinding o with
    | some b => b.status (aVector o)
    | none => 0) s

/-- The read stream that BSTOP and SSKIP name, or their trap (R223). -/
def State.readStream (s : State) (o : Opnd) : Except Act Binding :=
  match s.aBinding o with
  | none => .error (.trap .streamUnbound (streamInfo (aVector o) (an o) 0))
  | some b => if b.write then .error (.trap .streamDirection (streamInfo (aVector o) (an o) 0)) else .ok b

/-- BSTOP (R223). -/
def execBstop (o : Opnd) (s : State) : Host.Outcome State Fault Refusal :=
  meaning o (.g [] [dn o]) (fun s =>
    match s.readStream o with
    | .error a => (s, a)
    | .ok b => match b.buf with
      | [] => (s, .wait (.streamRead (unitOf (aVector o) (an o))))
      | .stop l :: _ => compute o (fun _ => if o.f.toNat ≤ l then 1 else 0) s
      | .terminal :: _ => compute o (fun _ => 1) s
      | .elem _ :: _ | .bad _ _ :: _ => compute o (fun _ => 0) s) s

/-- A buffer past the next stop token of level `l` or above, and whether one, or the terminal token, was reached (R223). -/
def skipTo (l : Nat) : List StreamItem → List StreamItem × Bool
  | [] => ([], false)
  | .terminal :: q => (.terminal :: q, true)
  | .stop k :: q => if l ≤ k then (q, true) else skipTo l q
  | .elem _ :: q | .bad _ _ :: q => skipTo l q

/-- SSKIP (R223): what it discards before it waits stays discarded. -/
def execSskip (o : Opnd) (s : State) : Host.Outcome State Fault Refusal :=
  meaning o .none (fun s =>
    match s.readStream o with
    | .error a => (s, a)
    | .ok b =>
      let unit := unitOf (aVector o) (an o)
      let r := skipTo o.f.toNat b.buf
      let s := s.modMyCore fun k => k.modBinding unit fun b => { b with buf := r.1 }
      (s, if r.2 then .done else .wait (.streamRead unit))) s

/-! ## Reads of a binding (R217 to R219, R224, R225) -/

/-- The element's bits as the register receives them (R218): of a padded tf6 byte, [5:0] (R84). -/
def Binding.extend (b : Binding) (vector : Bool) (v : Nat) : Nat :=
  if vector then v
  else if fmtSigned b.pat.fmt then (wordI (signedOf (fmtBytes b.pat.fmt) v)).toNat
  else if b.pat.fmt = 4 then v % 64 else v

/-- Whether a unit's read stream has something to read: it is bound, not held, and has room (R220). -/
def Binding.reads (b : Binding) (vector : Bool) : Bool :=
  !b.write && !b.held && b.fault.isNone && !b.ended && decide (b.buffered < if vector then 4 else 16)

/-- What the next read of a binding comes to. -/
inductive StreamNext where
  /-- nothing is to be read -/
  | idle
  /-- items for the buffer, and the binding's new place -/
  | items (s : State) (b : Binding) (l : List StreamItem)
  /-- a translation fault withholds the element -/
  | void (f : EngFault)
  /-- bytes of host or peer memory have been asked for -/
  | await (s : State)

/-- The range or alignment fault of an element whose address a segmented pattern generates (R225). -/
def Pattern.elemFault (p : Pattern) (vector : Bool) (a : Int) (write : Bool) : Option (Cause × Word) :=
  let size := p.size vector
  match engineRange p.space a size (sizeCode size) write with
  | some f => some f
  | none => if a % (size : Int) = 0 then none else some (.align, infoM (lowBits 57 a) p.space.code (sizeCode size) write)

/-- `%einfo` of an engine fault: layout M, or the slot and the actor for KEY_SLOT (R194). -/
def State.engInfo (s : State) (t holder : Nat) (sp : Space) (size : Nat) (write : Bool) (f : EngFault) : Word :=
  if f.cause == .keySlot then
    let slot := s.nodeKey t
    match (s.engPieces t holder write (pagePieces f.va size)).2 with
    | .ok ps => (match s.keyFault slot ps with | some (_, i) => i | none => keySlotInfo slot 0)
    | .error _ => keySlotInfo slot 0
  else infoM f.va sp.code (sizeCode size) write

/-- A binding has met a fault that its completion reports (R106, R195, R210). -/
def Binding.meets (b : Binding) (f : EngFault) : Binding :=
  if b.ending.isSome then b else { b with ending := some ⟨BitVec.ofNat 16 (0x8000 + f.cause.code), faultDetail f.va f.cause⟩ }

/-- Element `b.next` of a read binding, followed by `after` once it has been read. -/
def State.readElement (s : State) (t c unit : Nat) (b : Binding) (b' : Binding) (after : List StreamItem) : StreamNext :=
  let vector := decide (8 ≤ unit)
  let size := b.pat.size vector
  let a := b.pat.addr b.next
  match (if b.pat.seg then b.pat.elemFault vector a false else none) with
  | some (e, i) => .items s b' (.bad e i :: after)
  | none =>
    match s.engineRead t b.pat.core b.pat.space b.bkey (streamHolder c unit) a.toNat size with
    | (s', .ok v) => .items (s'.dropRemote t (streamHolder c unit)) b' (.elem (b.extend vector v) :: after)
    | (s', .error .pending) => .await s'
    | (s', .error (.fault f)) =>
      if f.cause.withholds then .void f
      else .items s' (b'.meets f) (.bad f.cause (s.engInfo t (streamHolder c unit) b.pat.space size false f) :: after)

/-- The end of run `b.run`: its level-0 token, or the terminal token after the last run (R219). -/
def Binding.runEnd (b : Binding) : Binding × List StreamItem :=
  if b.run + 1 < b.pat.runs then
    ({ b with run := b.run + 1, inRun := 0, runLen := none }, if b.pat.stopMask.getLsbD 0 then [.stop 0] else [])
  else ({ b with ended := true }, [.terminal])

/-- What a read stream's generator does next. -/
def State.streamNext (s : State) (t c unit : Nat) : StreamNext :=
  match s.bindingAt t c unit with
  | none => .idle
  | some b =>
    if !b.reads (decide (8 ≤ unit)) then .idle
    else if !b.pat.seg then
      if b.pat.total ≤ b.next then .items s { b with ended := true } [.terminal]
      else
        let b' := { b with next := b.next + 1, ended := decide (b.next + 1 = b.pat.total) }
        s.readElement t c unit b b' (b.pat.stopAfter b.next)
    else
      let len : Except Nat Nat := match b.runLen with | some n => .ok n | none => s.segLen t b b.run
      match len with
      | .error u => .items s { b.meets ⟨u, .localEcc⟩ with ended := true } [.bad .localEcc (infoM u 0 2 false), .terminal]
      | .ok n =>
        if n ≤ b.inRun then (let r := b.runEnd; .items s r.1 r.2)
        else
          let b' := { b with next := b.next + 1, inRun := b.inRun + 1, runLen := some n }
          if b.inRun + 1 < n then s.readElement t c unit b b' []
          else (let r := b'.runEnd; s.readElement t c unit b r.1 r.2)

/-- STREAM_ELEMENT_READ (R219, R224): one element, with the stop token that follows it. A data error rolls the chase back only when its
element would be consumed (R223, R225). -/
def execStreamElementRead (t c u : Nat) (s : State) : Host.Outcome State Fault Refusal :=
  match s.streamNext t c u with
  | .items s' b l =>
    .next (s'.modBinding t c u fun _ => { b with buf := b.buf ++ l })
  | .await s' => .next s'
  | .idle | .void _ => .next s

/-! ## Write rounds (R224) -/

/-- A round of a write binding is due: it is full, its pattern has ended, or SUNBIND or FENCE.E waits for it (R224). -/
def State.commitDue (s : State) (t c unit : Nat) (b : Binding) : Bool :=
  b.write && !b.open_.isEmpty && !b.held && b.fault.isNone &&
  (b.full (decide (8 ≤ unit)) || b.exhausted ||
    (match (s.ctx ⟨t, c, b.owner⟩).waits with
      | some (.streamFlush o) => o == none || o == some unit
      | some (.fence k _) => k == 4
      | _ => false))

/-- The bits that an appended element stores: for tf6, [7:6] zero (R218). -/
def Binding.stored (b : Binding) (vector : Bool) (v : Nat) : Nat := if !vector && b.pat.fmt == 4 then v % 64 else v

/-- An element's bytes where it writes only some bits: whole 16-byte units at once, other bytes one by one. The bits that are not
written stay as they stand in memory (R287). Pairs of offset and bytes. -/
def keepPieces (keep size : Nat) : List (Nat × Nat) :=
  (List.range ((size + 15) / 16)).flatMap fun u =>
    let w := min 16 (size - 16 * u)
    if keep / 256 ^ (16 * u) % 256 ^ w = 256 ^ w - 1 then [(16 * u, w)]
    else ((List.range w).filter fun i => keep / 256 ^ (16 * u + i) % 256 != 0).map fun i => (16 * u + i, 1)

/-- A byte as an engine finds it in memory, whatever error it stands under; 0 where it has no translation. -/
def State.engPeek (s : State) (t core : Nat) (sp : Space) (bkey : BitVec 56) (holder a : Nat) : Nat :=
  match sp with
  | .d => (match s.engPieces t holder true [(a, 1)] with
    | (s, .ok ps) => s.readPieces (s.nodeKey t) ps
    | (_, .error _) => 0)
  | .t | .a | .c | .w | .x => s.readLocal t core sp bkey a 1

/-- An appended element is performed. -/
def State.writeElement (s : State) (t c unit : Nat) (b : Binding) (a : Nat) (e : Append) : State :=
  let vector := decide (8 ≤ unit)
  let size := b.pat.size vector
  let put (s : State) (off n v : Nat) : State :=
    (s.engineWrite t c (32 + unit) b.pat.core b.pat.space b.bkey (streamHolder c unit) (a + off) n v).1
  match e.keep with
  | none => put s 0 size (b.stored vector e.value)
  | some keep =>
    if keep = 256 ^ size - 1 then put s 0 size e.value
    else (keepPieces keep size).foldl (fun s p =>
      let k := keep / 256 ^ p.1 % 256 ^ p.2
      let v := e.value / 256 ^ p.1 % 256 ^ p.2
      if k = 256 ^ p.2 - 1 then put s p.1 p.2 v
      else put s p.1 p.2 ((s.engPeek t b.pat.core b.pat.space b.bkey (streamHolder c unit) (a + p.1) &&& (255 - k)) ||| (v &&& k))) s

/-- The first element of a round, from element `n`, whose write is not translated or has no key. -/
def State.roundReady (t c unit : Nat) (b : Binding) : Nat → Nat → State → State × Except EngFault Unit
  | 0, _, s => (s, .ok ())
  | left + 1, n, s =>
    match s.engineReady t b.pat.space (streamHolder c unit) (b.pat.addr n).toNat (b.pat.size (decide (8 ≤ unit))) with
    | (s, .error e) => (s, .error e)
    | (s, .ok ()) => State.roundReady t c unit b left (n + 1) s

/-- The writes of a round, in append order (R224). -/
def State.writeRound (t c unit : Nat) (b : Binding) : Nat → List Append → State → State
  | _, [], s => s
  | n, e :: es, s => State.writeRound t c unit b (n + 1) es (s.writeElement t c unit b (b.pat.addr n).toNat e)

/-- A write round performed: every translation first, then the writes (R208, R224). A missing key ends the binding with its cause
(R349). A translation fault performs nothing. -/
def State.commitRound (s : State) (t c unit : Nat) (b : Binding) : State × Option EngFault :=
  match State.roundReady t c unit b b.open_.length b.next s with
  | (s', .ok ()) =>
    ((State.writeRound t c unit b b.next b.open_ s').modBinding t c unit fun b =>
      { b with next := b.next + b.open_.length, open_ := [] }, none)
  | (s', .error f) =>
    if f.cause.withholds then (s, some f)
    else
      let e : Ending := ⟨BitVec.ofNat 16 (0x8000 + f.cause.code), faultDetail f.va f.cause⟩
      ((s'.modBinding t c unit fun b => { b with open_ := [], ended := true, ending := some e }).strikeFor t f.cause, none)

/-- STREAM_ROUND_COMMIT (R224). -/
def execStreamRoundCommit (t c u : Nat) (s : State) : Host.Outcome State Fault Refusal :=
  match s.bindingAt t c u with
  | none => .next s
  | some b => .next (if s.commitDue t c u b then (match s.commitRound t c u b with | (s', none) => s' | (_, some _) => s) else s)

/-! ## Faults (R225) -/

/-- A translation fault that the unit's next access meets. -/
def State.streamBlocked (s : State) (t c unit : Nat) : Option EngFault :=
  match s.bindingAt t c unit with
  | none => none
  | some b =>
    if b.write then (if s.commitDue t c unit b then (s.commitRound t c unit b).2 else none)
    else match s.streamNext t c unit with | .void f => some f | .idle | .items _ _ _ | .await _ => none

/-- STREAM_FAULT (R225): the element is withheld, or the write round voided, and the fault is reported. -/
def execStreamFault (t c u : Nat) (s : State) : Host.Outcome State Fault Refusal :=
  match s.streamBlocked t c u with
  | none => .next s
  | some f =>
    let ident := match s.bindingAt t c u with | some b => b.ident | none => 0
    .next ((s.modBinding t c u fun b => { b with fault := some (f.va, f.cause), voided := b.write || b.voided }).withhold
      t 1 (0x40 + 16 * c + u) c ident f.va f.cause)

end Sys2Proof.Machine
end

