-- ==== Sys2Proof/Machine/Walker.lean ====
section
/-! DEFINITION. Walkers (R228 to R250): signatures, coordinates, claims and steals, retirement and the walker instructions; and the
state in which a handler starts (R132). -/

namespace Sys2Proof.Machine

/-! ## Handler start (R132) -/

/-- The context as it is allocated to a handler (R89, R108, R132, R169, R180). `%ksave` is never written by hardware. -/
def Ctx.start (k : Ctx) (h : Handler) (entry : Word) (g2 g3 : Word) (budget : BitVec 32) (cap : BitVec 2) (bkey : BitVec 56)
    (ticket : Nat) : Ctx :=
  { k with
    status := .ready
    handler := h
    regs := { g := Sparse.set 0 (Sparse.set 0 [] 2 g2) 3 g3, v := [], k := [] }
    trap := { TrapRegs.reset with ksave := k.trap.ksave }
    sys := { CtxRegs.reset with cap := cap, hbudget := budget, bkey := bkey }
    pc := entry
    pcFrom := none
    loops := []
    flights := []
    words := 0
    waited := 0
    since := ticket
    granted := false
    stalled := false
    behind := false
    ahead := false
    started := false
    pend := none
    kept := none
    budget0 := budget
    bcycles := 0
    sender := SenderState.reset }

/-- A context is allocated to a handler. -/
def State.allocate (s : State) (u : Cur) (h : Handler) (entry g2 g3 : Word) (budget : BitVec 32) (cap : BitVec 2) : State :=
  let key := (s.tile u.tile).port.desc.bkey
  let tk := s.ticket
  s.drawTicket.modCtx u fun k => k.start h entry g2 g3 budget cap key tk

/-- The free contexts of a core that no reservation holds (R28, R340), lowest first. -/
def State.freeCtxs (s : State) (t c : Nat) : List Nat :=
  let y := s.tile t
  (List.range 16).filter fun x => ((y.core c).ctx x).status == .free && !(y.port.reservations.any fun r => r.core == c && r.ctx == x)

/-! ## Signatures and coordinates (R228 to R230) -/

/-- The signature that 128 bytes hold. -/
def signatureOf (v : Nat) : Signature :=
  let flags := field v 3 1
  { dims := field v 1 1 % 8, order := field v 2 1 % 4, red := flags % 2 == 1, steal := flags / 2 % 2 == 1, pack := flags / 4 % 2 == 1
    ev := flags / 8 % 2 == 1, limit := flags / 16 % 4 + 1
    ext := [field v 8 4, field v 12 4, field v 16 4, field v 20 4]
    blk := [field v 24 2, field v 26 2, field v 28 2, field v 30 2]
    item := field v 32 4 % 2 ^ 17, ibudget := field v 36 4, args := field v 40 4 % 2 ^ 20, qmask := BitVec.ofNat 8 (field v 44 1)
    tag := BitVec.ofNat 24 (field v 48 4), tsize := field v 52 2, slots := field v 56 4 % 2 ^ 20, slotsize := field v 60 2 }

/-- Blocks of dimension `k` (R229). -/
def Signature.blocks (g : Signature) (k : Nat) : Nat :=
  let b := g.blk.getD k 0
  if b = 0 then 0 else (g.ext.getD k 0 + b - 1) / b

/-- Blocks of the dimensions that the walk has. -/
def Signature.counts (g : Signature) : List Nat := (List.range (min g.dims 4)).map g.blocks

/-- Blocks of the walk (R229). -/
def Signature.total (g : Signature) : Nat := g.counts.foldl (· * ·) 1

/-- A power of two. -/
def isPow2 (n : Nat) : Bool := n != 0 && 2 ^ Nat.log2 n == n

/-- The byte offset of the first field that breaks R228 or R229; `quireOk` tells the quires that the core takes part in. -/
def signatureCheck (v : Nat) (quireOk : Nat → Bool) : Option Nat :=
  let g := signatureOf v
  let d := g.dims
  let badTotal : Bool := (g.blk.take d).all (· != 0) &&
    (g.counts.any (fun n => decide (65535 < n)) || decide (2 ^ 40 < g.total) || (g.order == 2 && !g.counts.all isPow2) ||
      (g.red && decide (0x100000 < g.slots + g.total * g.slotsize)))
  if field v 0 1 ≠ 1 then some 0
  else if d < 1 ∨ 4 < d ∨ field v 1 1 ≠ d then some 1
  else if 4 ≤ field v 2 1 then some 2
  else if 64 ≤ field v 3 1 then some 3
  else if field v 4 4 ≠ 0 then some 4
  else if badTotal then some 8
  else match (List.range 4).find? fun k => decide (d ≤ k) && g.ext.getD k 0 != 0 with
    | some k => some (8 + 4 * k)
    | none => match (List.range 4).find? fun k => decide (k < d) == (g.blk.getD k 0 == 0) with
      | some k => some (24 + 2 * k)
      | none =>
        if 2 ^ 17 ≤ field v 32 4 then some 32
        else if 2 ^ 20 ≤ field v 40 4 then some 40
        else if (List.range 8).any (fun q => g.qmask.getLsbD q && !quireOk q) then some 44
        else if field v 45 3 ≠ 0 then some 45
        else if g.steal ∧ (2 ^ 24 ≤ field v 48 4 ∨ Tag.kind g.tag ≠ 1) then some 48
        else if g.steal ∧ (g.tsize = 0 ∨ 256 < g.tsize) then some 52
        else if field v 54 2 ≠ 0 then some 54
        else if 2 ^ 20 ≤ field v 56 4 ∨ (!g.red ∧ g.slots ≠ 0) then some 56
        else if (if g.red then g.slotsize % 8 ≠ 0 ∨ g.slotsize < 8 ∨ 4096 < g.slotsize else g.slotsize ≠ 0) then some 60
        else if field v 62 66 ≠ 0 then some 62
        else none

/-- Residues of a linear index, dimension 0 first. -/
def residues : List Nat → Nat → List Nat
  | [], _ => []
  | n :: ns, l => (if n = 0 then 0 else l % n) :: residues ns (if n = 0 then 0 else l / n)

/-- Block indices under the linear orders, from the last dimension down: residues and counts reversed, and the running sum `p`. -/
def serpent (on : Bool) : Nat → List (Nat × Nat) → List Nat
  | _, [] => []
  | p, (r, n) :: rest =>
    let b := if on && p % 2 == 1 then n - 1 - r else r
    b :: serpent on (p + b) rest

/-- Block indices under the Morton order: the bits of `l` dealt to the dimensions in turn. `pairs` lists (bit, dimension). -/
def morton (l : Nat) : Nat → List (Nat × Nat) → List Nat → List Nat
  | _, [], b => b
  | j, (bit, k) :: rest, b =>
    morton l (j + 1) rest (b.set k (b.getD k 0 + l / 2 ^ j % 2 * 2 ^ bit))

/-- Block indices of a linear index (R230). -/
def Signature.indices (g : Signature) (l : Nat) : List Nat :=
  let ns := g.counts
  let l := if g.order = 3 then g.total - 1 - l else l
  if g.order = 2 then
    let pairs := (List.range 16).flatMap fun bit =>
      ((List.range ns.length).filter fun k => decide (bit < Nat.log2 (ns.getD k 1))).map fun k => (bit, k)
    morton l 0 pairs (ns.map fun _ => 0)
  else
    match (List.zip (residues ns l) ns).reverse with
    | [] => []
    | (r, _) :: rest => (r :: serpent (g.order == 1) r rest).reverse

/-- The coordinate of a linear index (R230). -/
def Signature.coord (g : Signature) (l : Nat) : Word :=
  if g.pack then word l
  else
    let b := g.indices l
    word (b.getD 0 0 + 2 ^ 16 * b.getD 1 0 + 2 ^ 32 * b.getD 2 0 + 2 ^ 48 * b.getD 3 0)

/-! ## Walkers -/

/-- The state with a walker changed. -/
def State.modWalker (s : State) (t c : Nat) (f : Walker → Walker) : State := s.modCore t c fun k => { k with walker := f k.walker }

/-- The walker of a core. -/
def State.walker (s : State) (t c : Nat) : Walker := (s.core t c).walker

/-- The tag by which walkers name a tile: its member's, or its role's where it has no member. -/
def State.tileTag (s : State) (t : Nat) : Tag :=
  let m := (s.tile t).place.member
  if m = 0 then roleTag t else m

/-- The tiles of a steal domain, in ascending member number (R240). -/
def State.domain (s : State) (tag : Tag) (tsize : Nat) : List (Tag × Nat) :=
  (List.range tsize).filterMap fun m =>
    let g : Tag := tag + BitVec.ofNat 24 m
    (s.tileOf g).map fun t => (g, t)

/-- The walkers of a steal domain, in ascending member and core number. -/
def State.domainWalkers (s : State) (tag : Tag) (tsize : Nat) : List WalkerName :=
  (s.domain tag tsize).flatMap fun p => (List.range 4).map fun c => ⟨p.1, c⟩

/-- A walk of a walker completes when every coordinate has retired (R232, R233). -/
def State.completeWalk (s : State) (t c : Nat) (walk : BitVec 32) : State :=
  match (s.walker t c).open_.find? fun w => w.walk == walk && w.retired == w.total with
  | none => s
  | some w =>
    let s := s.modWalker t c fun k => { k with open_ := k.open_.filter (·.walk != walk) }
    let e : Ending := match w.ecc with
      | some u => ⟨BitVec.ofNat 16 (0x8000 + Cause.localEcc.code), faultDetail u .localEcc⟩
      | none => ⟨0, word (w.retired % 2 ^ 40 + 2 ^ 40 * min w.freed (2 ^ 24 - 1))⟩
    if w.ev then s.deliverInOrder t c (mkRecord 2 c e.status walk e.detail) else s.settleLate t c

/-- The home adds a piece's count to its walk (R237). -/
def State.addRetired (s : State) (t c : Nat) (walk : BitVec 32) (retired freed : Nat) (ecc : Option Nat) : State :=
  let add (w : OpenWalk) : OpenWalk := { w with retired := w.retired + retired, freed := w.freed + freed, ecc := w.ecc <|> ecc }
  let s := s.modWalker t c fun k => { k with open_ := k.open_.map fun w => if w.walk = walk then add w else w }
  (if ecc.isSome then s.strikeTile t else s).completeWalk t c walk

/-- A thief's slots are written to the home tile, one event for each 8-byte unit (R237). A unit that cannot be read is withheld. -/
def State.writeSlots (s : State) (t home : Nat) (p : Piece) : Nat → Nat → State × Option Nat
  | 0, _ => (s, none)
  | n + 1, a =>
    let r := s.writeSlots t home p n (a + 8)
    match s.badLocal t 0 .t noKey a 8 with
    | some u => (r.1, some u)
    | none => (r.1.writeLocal home 0 .t noKey a 8 (s.readLocal t 0 .t noKey a 8), r.2)

/-- The linear indices that a thief piece has run. -/
def Piece.first (p : Piece) : Nat := p.next - p.retired

/-- A piece ends when its range is empty and no coordinate is in flight (R237). -/
def State.endPiece (s : State) (t c : Nat) : State :=
  match (s.walker t c).piece with
  | none => s
  | some p =>
    if p.next < p.stop ∨ !p.flying.isEmpty then s
    else
      let s' := s.modWalker t c fun k => { k with piece := none }
      if !p.thief then s'.addRetired t c p.walk p.retired p.freed p.ecc
      else match s.tileOf p.home.tag with
        | none => s'
        | some h =>
          let r := if p.sig.red then
              s'.writeSlots t h p ((p.stop - p.first) * p.sig.slotsize / 8) (p.sig.slots + p.first * p.sig.slotsize)
            else (s', none)
          r.1.post (.retire h p.home p.walk p.retired p.freed (p.ecc <|> r.2))

/-- The coordinate that a context holds: its entry among those in flight. -/
def Piece.held (p : Piece) (x : Nat) : Option (Nat × Coord) := p.flying.find? fun e => e.2.ctx == some x

/-- The quires at which the retirement of a core's coordinate arrives, as far as they take its arrival (R236, R255). -/
def State.retireQuires (s : State) (t c : Nat) (p : Piece) : List Nat :=
  (List.range 8).filter fun q => p.sig.qmask.getLsbD q && (s.quire t q).takes c

/-- The retirement of a coordinate of a core finds room in every bank (R256). -/
def State.retireRoom (s : State) (t c : Nat) : Bool :=
  match (s.walker t c).piece with
  | none => true
  | some p => (s.retireQuires t c p).all fun q => decide ((s.quire t q).bank c < 15)

/-- A context's coordinate retires (R236); `freed` where the micro-kernel freed the context without the handler's ending (R233). -/
def State.retire (s : State) (u : Cur) (freed : Bool) : State :=
  match (s.walker u.tile u.core).piece with
  | none => s
  | some p =>
    match p.held u.ctx with
    | none => s
    | some (e, _) =>
      let p' := { p with flying := p.flying.erase e, retired := p.retired + 1, freed := p.freed + freed.toNat }
      let s := s.modWalker u.tile u.core fun k => { k with piece := some p' }
      let s := (s.retireQuires u.tile u.core p).foldl (fun s q => s.coreArrive u.tile q u.core) s
      s.endPiece u.tile u.core

/-- A context holds a coordinate. -/
def State.holdsCoord (s : State) (u : Cur) : Bool :=
  match (s.walker u.tile u.core).piece with | some p => (p.held u.ctx).isSome | none => false

/-- What keeps a context's coordinate from retiring: accesses that are not performed, since a retirement is a release into the walk's
completion (R128, R232, R236), or a full bank (R256). A context that holds none has nothing to retire. -/
def State.retireHeld (s : State) (u : Cur) : Option Wait :=
  if !s.holdsCoord u then none
  else if s.owes u 2 then some (.fence 2 2)
  else if !s.retireRoom u.tile u.core then some .retire
  else none

/-! ## Claims and steals (R234, R238 to R240) -/

/-- A walker is idle: it holds no piece, and no request of its own is under way that could bring it one (R231, R240). -/
def Walker.idle (w : Walker) : Bool := w.piece.isNone && w.asking.isNone

/-- The lowest free entry among the coordinates in flight. -/
def Piece.freeEntry (p : Piece) : Nat := ((List.range 4).find? fun i => (p.flying.find i).isNone).getD 4

/-- The piece with its next index claimed for a context. -/
def Piece.claim (p : Piece) (x : Nat) : Piece :=
  { p with next := p.next + 1, flying := p.flying.put p.freeEntry ⟨p.next, some x⟩ }

/-- The walker holds a piece with an index left and takes claims. -/
def Walker.live (w : Walker) : Bool := !w.saving && (match w.piece with | some p => decide (p.next < p.stop) | none => false)

/-- The context that a dispatch would take, if one is pending (R234). -/
def State.dispatchCtx (s : State) (t c : Nat) : Option Nat :=
  let w := s.walker t c
  match w.piece with
  | some p => if w.live ∧ p.flying.length < p.sig.limit then (s.freeCtxs t c).head? else none
  | none => none

/-- The dispatch of the next index (R234). -/
def State.dispatch (s : State) (t c x : Nat) : State :=
  match (s.walker t c).piece with
  | none => s
  | some p =>
    let s := s.modWalker t c fun k => { k with piece := some (p.claim x), claims := k.claims.map fun q => (q.1, false) }
    s.allocate ⟨t, c, x⟩ (.item p.walk.toNat (some p.next)) (word p.sig.item) (word p.sig.args) (p.sig.coord p.next)
      (BitVec.ofNat 32 p.sig.ibudget) (s.tile t).port.desc.fcap

/-- A context's handler holds a coordinate with this index, or none. -/
def State.setItem (s : State) (u : Cur) (index : Option Nat) : State :=
  let f (h : Handler) : Handler := match h with
    | .item w _ => .item w index
    | .none | .firing _ | .mail _ _ _ _ _ _ => h
  s.modCtx u fun k => { k with handler := f k.handler }

/-- Register d of the WNEXT at a context's pc, and its length. -/
def State.nextReg (s : State) (u : Cur) : Nat × Nat :=
  match decode (fetchWords (s.tile u.tile).x 5 (xAddr (s.ctx u).pc)) with
  | .ok (.wnext o, n) => (dn o, n)
  | _ => (0, 0)

/-- A WNEXT that waits completes: its handler holds the coordinate of an index of the walker's piece, or none (R245). -/
def State.giveClaim (s : State) (u : Cur) (index : Option Nat) (coord : Word) : State :=
  let r := s.nextReg u
  ((s.setItem u index).lgFor u r.1 coord r.2).completeWait u

/-- A WNEXT claim can be answered: the range is empty, or a coordinate more may be in flight (R231, R234). -/
def Walker.mayAnswer (w : Walker) : Bool :=
  match w.piece with
  | some p => decide (p.stop ≤ p.next) || decide (p.flying.length < p.sig.limit)
  | none => true

/-- The oldest WNEXT claim is answered: with the next index, or with none where the range is empty (R245). The index is one of the piece
that the walker then holds, even where its walk is another than that of the coordinate that retired (DEDUCED: assumption 25). -/
def State.answerClaim (s : State) (t c x : Nat) : State :=
  let s := s.modWalker t c fun k => { k with claims := k.claims.tail }
  let u : Cur := ⟨t, c, x⟩
  match (s.walker t c).piece with
  | some p =>
    if p.next < p.stop then (s.modWalker t c fun k => { k with piece := some (p.claim x) }).giveClaim u (some p.next) (p.sig.coord p.next)
    else s.giveClaim u none (BitVec.allOnes 64)
  | none => s.giveClaim u none (BitVec.allOnes 64)

/-- The owner's claim of a step: the older of the pending claims, a dispatch before a WNEXT of its age (R238). -/
def State.ownerClaim (s : State) (t c : Nat) : State :=
  let w := s.walker t c
  if w.saving then s
  else match w.claims, s.dispatchCtx t c with
    | [], some x => s.dispatch t c x
    | (_, true) :: _, some x => s.dispatch t c x
    | (x, _) :: _, _ => if w.mayAnswer then s.answerClaim t c x else s
    | [], none => s

/-- A thief's tile lies in the steal domain of a walk (R240). -/
def Signature.admits (g : Signature) (thief : Tag) : Bool :=
  g.steal && decide ((thief - g.tag).toNat < g.tsize)

/-- The answer to a steal request: its status, the piece that it grants, and the walker after it (R238 to R240). -/
def Walker.steal (w : Walker) (r : StealReq) : Nat × Option Piece × Walker :=
  if w.saving then (3, none, w)
  else match w.piece with
    | none => (1, none, w)
    | some p =>
      if r.walk.any (fun q => q != (p.home, p.walk)) then (1, none, w)
      else if !p.sig.admits r.thief.tag then (4, none, w)
      else if p.stop - p.next < 2 then (2, none, w)
      else
        let mid := p.next + (p.stop - p.next + 1) / 2
        (0, some { p with thief := true, next := mid, retired := 0, freed := 0, flying := [], ecc := none },
          { w with piece := some { p with stop := mid } })

/-- The place in `State.net` of the oldest steal request to a walker. -/
def State.stealAsked (s : State) (t c : Nat) : Option (Nat × StealReq) :=
  let rec go : Nat → List Msg → Option (Nat × StealReq)
    | _, [] => none
    | i, .stealAsk t' c' r :: ms => if t' = t ∧ c' = c then some (i, r) else go (i + 1) ms
    | i, _ :: ms => go (i + 1) ms
  go 0 s.net

/-- The arbiter answers its oldest steal request (R238). -/
def State.answerSteal (s : State) (t c : Nat) : State :=
  match s.stealAsked t c with
  | none => s
  | some (i, r) =>
    let frozen := (s.tile t).port.held || (s.tile t).port.frozen
    let a := if frozen then (3, none, s.walker t c) else (s.walker t c).steal r
    let s := { s with net := s.net.eraseIdx i }
    (s.modWalker t c fun _ => a.2.2).post (.stealAnswer r.tile r.thief.core r.by_ a.1 a.2.1)

/-- WALKER_ARBITER_STEP (R238): one owner claim, then one steal. -/
def execWalkerArbiterStep (t c : Nat) (s : State) : Host.Outcome State Fault Refusal := .next ((s.ownerClaim t c).answerSteal t c)

/-- WALKER_DISPATCH (R234): a step of the arbiter whose claim is a dispatch and to which no steal request has come. -/
def execWalkerDispatch (t c : Nat) (s : State) : Host.Outcome State Fault Refusal :=
  match (s.walker t c).claims, s.dispatchCtx t c, s.stealAsked t c with
  | [], some x, none => .next (s.dispatch t c x)
  | (_, true) :: _, some x, none => .next (s.dispatch t c x)
  | _, _, _ => .next s

/-- The piece as a thief holds it: item, budget, arguments, quire mask and slots come from its own tile's copy (R235). -/
def State.ownCopy (s : State) (t : Nat) (p : Piece) : Piece :=
  let g := signatureOf (s.readLocal t 0 .t noKey p.sigAddr 128)
  { p with
    sig := { g with dims := p.sig.dims, order := p.sig.order, red := p.sig.red, steal := p.sig.steal, pack := p.sig.pack
                    ev := p.sig.ev, limit := p.sig.limit, ext := p.sig.ext, blk := p.sig.blk }
    ecc := s.badLocal t 0 .t noKey p.sigAddr 128 }

/-- The victims of a notice's rotation (R241): the home, then the walkers of the domain after the thief's own. -/
def State.victims (s : State) (me : WalkerName) (n : WalkNotice) : List WalkerName :=
  let all := s.domainWalkers n.tag n.tsize
  let after := (all.dropWhile (· != me)).tail ++ all.takeWhile (· != me)
  n.home :: after.filter fun w => w != n.home && w != me

/-- A walker's notices after a refusal of the head one, or after a grant (R241). -/
def State.nextVictim (s : State) (me : WalkerName) (granted : Bool) : List WalkNotice → List WalkNotice
  | [] => []
  | n :: ns =>
    if granted then { n with tried := 0 } :: ns
    else if n.tried + 1 < (s.victims me n).length then { n with tried := n.tried + 1 } :: ns
    else ns

/-- STEAL_ANSWER_ARRIVAL (R239, R241, R247). -/
def execStealAnswerArrival (n : Nat) (s : State) : Host.Outcome State Fault Refusal :=
  match s.take n with
  | some (.stealAnswer t c by_ status piece, s') =>
    let me : WalkerName := ⟨s'.tileTag t, c⟩
    let w := s'.walker t c
    let count := match piece with | some p => p.stop - p.next | none => 0
    let s' := match piece with
      | some p => s'.modWalker t c fun k => { k with piece := some (s'.ownCopy t p) }
      | none => s'
    match by_ with
    | none => .next (s'.modWalker t c fun k => { k with asking := none, notices := s'.nextVictim me (status == 0) w.notices })
    | some x =>
      let waits := (s'.ctx ⟨t, c, x⟩).waits == some .steal
      .next (s'.modWalker t c fun k => { k with
        asking := none
        answer := if waits then k.answer.put x (word (status + 256 * count)) else k.answer })
  | _ => .next s

/-- WALK_NOTICE (R241): four notices are kept. -/
def execWalkNotice (n : Nat) (s : State) : Host.Outcome State Fault Refusal :=
  match s.take n with
  | some (.walkNotice t c m, s') =>
    .next (s'.modWalker t c fun k => if k.notices.length < 4 then { k with notices := k.notices ++ [m] } else k)
  | _ => .next s

/-- The automatic request that an idle walker is to send, if it is to send one (R241). -/
def State.autoSteal (s : State) (t c : Nat) : Option WalkNotice :=
  let w := s.walker t c
  let asked := (s.waitingOn t fun u q => decide (u.core = c) && q == .steal)
  if w.piece.isNone && !w.saving && w.asking.isNone && asked.isEmpty then w.notices.head? else none

/-- AUTO_STEAL_REQUEST (R241). -/
def execAutoStealRequest (t c : Nat) (s : State) : Host.Outcome State Fault Refusal :=
  match s.autoSteal t c with
  | none => .next s
  | some n =>
    let me : WalkerName := ⟨s.tileTag t, c⟩
    match (s.victims me n)[n.tried]? with
    | none => .next (s.modWalker t c fun k => { k with notices := k.notices.tail })
    | some v =>
      match s.tileOf v.tag with
      | none => .next (s.modWalker t c fun k => { k with notices := s.nextVictim me false k.notices })
      | some vt =>
        .next ((s.modWalker t c fun k => { k with asking := some none }).post
          (.stealAsk vt v.core { thief := me, tile := t, by_ := none, walk := some (n.home, n.walk) }))

/-- RETIREMENT_REPORT (R237). -/
def execRetirementReport (n : Nat) (s : State) : Host.Outcome State Fault Refusal :=
  match s.take n with
  | some (.retire t home walk retired freed ecc, s') => .next (s'.addRetired t home.core walk retired freed ecc)
  | _ => .next s

/-! ## The instructions (R243 to R249) -/

/-- `%einfo` of WALK_RECORD (R194). -/
def walkInfo (a off : Nat) : Word := word (a % 2 ^ 20 + 2 ^ 20 * off)

/-- The context under way runs an item handler. -/
def Ctx.isItem (k : Ctx) : Bool := match k.handler with | .item _ _ => true | .none | .firing _ | .mail _ _ _ _ _ _ => false

/-- Walk notices to every other walker of the steal domain (R241). -/
def State.sendNotices (s : State) (me : WalkerName) (walk : BitVec 32) (g : Signature) : State :=
  (s.domain g.tag g.tsize).foldl (fun s p => (List.range 4).foldl (fun s c =>
    if (⟨p.1, c⟩ : WalkerName) = me then s
    else s.post (.walkNotice p.2 c { walk := walk, home := me, tag := g.tag, tsize := g.tsize, tried := 0 })) s) s

/-- The walk is opened (R244 step 6), and its notices sent (R241). -/
def State.openWalk (s : State) (a : Nat) (g : Signature) : State :=
  let t := s.cur.tile
  let c := s.cur.core
  let id := (s.walker t c).nextId
  let me : WalkerName := ⟨s.tileTag t, c⟩
  let total := g.total
  let w : OpenWalk := { walk := id, total := total, retired := 0, freed := 0, ev := g.ev, by_ := ⟨c, s.cur.ctx⟩, ecc := none }
  let s := s.modWalker t c fun k => { k with open_ := k.open_ ++ [w], nextId := k.nextId + 1 }
  let s := if g.steal then s.sendNotices me id g else s
  if total = 0 then s.completeWalk t c id
  else
    let p : Piece :=
      { walk := id, sigAddr := a, sig := g, total := total, thief := false, home := me, next := 0, stop := total, retired := 0
        freed := 0, flying := [], ecc := none }
    s.modWalker t c fun k => { k with piece := some p }

/-- Step 5 of R244 with the snapshot `v`, whose event entry is held: the wait, or the walk. The issuer's earlier accesses come before
those of the walk (R123). -/
def launchBody (o : Opnd) (a v : Nat) (s : State) : State × Act :=
  let g := signatureOf v
  let w := s.walker s.cur.tile s.cur.core
  let wait (w : Wait) : State × Act := (s.modMe fun k => { k with kept := some (v, g.ev) }, .wait w)
  if s.awaitsOutside s.cur then wait (.fence 2 3)
  else if !w.idle || decide (4 ≤ w.open_.length) then wait .walker
  else computeLong o (fun _ => w.nextId.setWidth 64) (s.openWalk a g)

/-- WLAUNCH (R244): executed again after its wait, it goes on with the snapshot that it took. -/
def execWlaunch (o : Opnd) (s : State) : Host.Outcome State Fault Refusal :=
  meaning o (.g [an o] [dn o]) (fun s =>
    let t := s.cur.tile
    let c := s.cur.core
    let a := (s.rg (an o)).toNat
    if let some (v, _) := s.me.kept then launchBody o a v s
    else match descFault a 128 with
    | some (e, i) => (s, .trap e i)
    | none =>
      if s.me.isItem then (s, .trap .walkRecord (walkInfo a 127))
      else match s.descHit a 128 <|> (s.badLocal t c .t noKey a 128).map fun u => (.localEcc, infoM u 0 3 false) with
        | some (e, i) => (s, .trap e i)
        | none =>
          let v := s.readLocal t c .t noKey a 128
          match signatureCheck v fun q => (s.quire t q).takes c with
          | some off => (s, .trap .walkRecord (walkInfo a off))
          | none =>
            let ev := (signatureOf v).ev
            if ev && !s.myCore.evq.hasRoom then (s, .trap .eventOverflow (word (2 + 256 * c)))
            else launchBody o a v (if ev then s.reserveEvent t c else s)) s

/-- WNEXT (R245): a coordinate held retires, and the context waits for the step that answers its claim and completes the instruction. -/
def execWnext (o : Opnd) (s : State) : Host.Outcome State Fault Refusal :=
  meaning o (.g [] [dn o]) (fun s =>
    let t := s.cur.tile
    let c := s.cur.core
    if !s.holdsCoord s.cur then computeLong o (fun _ => BitVec.allOnes 64) s
    else match s.retireHeld s.cur with
      | some w => (s, .wait w)
      | none =>
        let s := (s.retire s.cur false).setItem s.cur none
        (s.modWalker t c fun k => { k with claims := k.claims ++ [(s.cur.ctx, (s.dispatchCtx t c).isSome)] }, .wait .claim)) s

/-- WSTEAL (R247). -/
def execWsteal (o : Opnd) (s : State) : Host.Outcome State Fault Refusal :=
  meaning o (.g [an o] [dn o]) (fun s =>
    let t := s.cur.tile
    let c := s.cur.core
    let x := s.cur.ctx
    let w := s.walker t c
    let a := s.rg (an o)
    let tag : Tag := a.setWidth 24
    let victim : WalkerName := ⟨tag, bits a 24 2⟩
    match w.answer.find x with
    | some v => computeLong o (fun _ => v) (s.modWalker t c fun k => { k with answer := k.answer.erase x })
    | none =>
      match (if Tag.kind tag = 1 then s.tileOf tag else none) with
      | none => (s, .trap .walkSteal (word (bits a 0 26)))
      | some vt =>
        if w.asking.isSome then (s, .wait .steal)
        else if w.piece.isSome then computeLong o (fun _ => 5) s
        else if vt = t ∧ victim.core = c then computeLong o (fun _ => 6) s
        else
          let me : WalkerName := ⟨s.tileTag t, c⟩
          ((s.modWalker t c fun k => { k with asking := some (some x) }).post
            (.stealAsk vt victim.core { thief := me, tile := t, by_ := some x, walk := none }), .wait .steal)) s

/-- The items of WSTAT (R248). -/
def State.walkStat (s : State) (n : Nat) : Word :=
  let w := s.walker s.cur.tile s.cur.core
  let mine := match s.me.handler with | .item _ i => i | .none | .firing _ | .mail _ _ _ _ _ _ => none
  match n, w.piece with
  | 0, _ => (match mine with | some i => word i | none => BitVec.allOnes 64)
  | 1, some p => word p.next
  | 2, some p => word p.stop
  | 3, some p => word p.retired
  | 4, p =>
    let held : Nat := match p with | some p => 1 + 2 * p.thief.toNat + 8 * p.flying.length + 2 ^ 32 * p.walk.toNat | none => 0
    word (held + 4 * w.saving.toNat + 64 * w.open_.length + 512 * w.notices.length)
  | 5, some p => (match mine with | some i => if p.sig.red then word (p.sig.slots + i * p.sig.slotsize) else 0 | none => 0)
  | _, _ => 0

/-- WSTAT (R248): single-cycle. -/
def execWstat (o : Opnd) (s : State) : Host.Outcome State Fault Refusal :=
  meaning o (.g [] [dn o]) (compute o fun s => s.walkStat (aNum o)) s

/-- A walk of a walker is open (R249). -/
def Walker.isOpen (w : Walker) (walk : BitVec 32) : Bool := w.open_.any (·.walk == walk)

/-- WJOIN (R249). -/
def execWjoin (o : Opnd) (s : State) : Host.Outcome State Fault Refusal :=
  meaning o (.g [an o] []) (fun s =>
    let walk : BitVec 32 := (s.rg (an o)).setWidth 32
    if s.myCore.walker.isOpen walk then (s, .wait (.walk walk)) else (s, .done)) s

end Sys2Proof.Machine
end

