-- ==== Sys2Proof/Machine/Link.lean ====
section
/-! DEFINITION. Alason links as the wafer meets them (R472 to R475): a token on its way to a link's endpoint crosses as three flits. -/

namespace Sys2Proof.Machine

/-- Kind of a token as a type and a value: level or cut. -/
def TokKind.code : TokKind → Nat × Nat
  | .data => (0, 0)
  | .colophon l => (1, l)
  | .proof c => (2, c.toNat)
  | .probe => (3, 0)
  | .seam => (12, 0)

/-- The class of a token's header on an arc (R38, R316). -/
def arcClass : Nat := 2

/-- Type of a token (R316): a DRAM reply, which its port takes as data, is type 10 (R351). -/
def Tok.type (k : Tok) : Nat := if k.dreq.isSome then 10 else k.kind.code.1

/-- The 16-byte header of a token to a port (R316), or of a DRAM reply (R351), whose source is the requesting port. -/
def Tok.header (k : Tok) (dst : Tag) (dport : Nat) : Nat :=
  let level := match k.kind with | .colophon l => l | .data | .proof _ | .probe | .seam => 0
  dst.toNat + 2 ^ 24 * dport + 2 ^ 28 * arcClass + 2 ^ 30 * k.type + 2 ^ 34 * level + 2 ^ 36 * k.len + 2 ^ 41 * k.row + 2 ^ 48 * k.status.toNat
    + 2 ^ 64 * k.stag.toNat + 2 ^ 88 * k.sport + 2 ^ 96 * k.seq.toNat

/-- Payload of an arc token: a proof mark carries its cut (R316). -/
def Tok.body (k : Tok) : Nat := match k.kind with | .proof c => c.toNat | .data | .colophon _ | .probe | .seam => k.payload.toNat

/-- A link. -/
def State.link (s : State) (k : Nat) : Link := s.plat.links.get Link.reset k

/-- The state with a link changed. -/
def State.modLink (s : State) (k : Nat) (f : Link → Link) : State :=
  { s with plat := { s.plat with links := s.plat.links.put k (f (s.link k)) } }

/-- A link is up (R475). -/
def State.linkUp (s : State) (l : Nat) : Bool := decide (2 ≤ (s.plat.links.get Link.reset l).lanes)

/-- A unit that the tiles share is held by its control item (R405). -/
def State.moduleHeld (s : State) (e u : Nat) : Bool := s.plat.holds.contains (256 * e + u)

/-- A link, or the route tables that every token of it is routed by, is held (R405, R472). -/
def State.linkHeld (s : State) (l : Nat) : Bool := s.moduleHeld 0xD (0x10 + l) || s.moduleHeld 0xD 0x20

/-- A link is up and not held. -/
def State.linkServes (s : State) (l : Nat) : Bool := s.linkUp l && !s.linkHeld l

/-- Flits that a retry buffer holds at most (R473). -/
def retryRoom : Nat := 4096

/-- The three flits of a token: its 144 bytes and 24 zero bytes, 56 in each, under ascending sequence numbers (R473). -/
def flitsOf (next : BitVec 12) (bytes : List Byte) : List Flit :=
  (List.range 3).map fun i =>
    { seq := next + BitVec.ofNat 12 i, kind := Config.tokenFlitKind, payload := (((bytes ++ List.replicate 24 0).drop (56 * i)).take 56) }

/-- A token leaves over a link (R473): its flits are sent, and kept until they are acknowledged. -/
def Link.transmit (k : Link) (bytes : List Byte) : Link :=
  let fs := flitsOf k.txNext bytes
  { k with txNext := k.txNext + 3, retry := k.retry ++ fs, wire := k.wire ++ fs }

/-- A token that a link cannot take yet waits for it (R473, R475): its retry buffer is full, or it is down. -/
def Link.takes (k : Link) : Bool := k.waiting.isEmpty && decide (2 ≤ k.lanes) && decide (k.retry.length + 3 ≤ retryRoom)

/-- The tokens that wait for a link leave as it takes them. -/
def Link.drainWaiting : Nat → Link → Link
  | 0, k => k
  | n + 1, k =>
    match k.waiting with
    | [] => k
    | b :: bs => if decide (2 ≤ k.lanes) && decide (k.retry.length + 3 ≤ retryRoom) then Link.drainWaiting n ({ k with waiting := bs }.transmit b) else k

/-- The link of an endpoint's tag, if it is a link's (R15): ports 0 to 3 come first, then the links (assumption 15). -/
def Tag.linkOf (g : Tag) : Option Nat := if Tag.kind g = 4 ∧ 4 ≤ Tag.name g ∧ Tag.name g < 20 then some (Tag.name g - 4) else none

/-- A token of a header and a payload leaves the module by a link, behind those that wait for it (R473 to R475); a held link takes none
(R405). -/
def State.sendByLink (s : State) (l header body : Nat) : State :=
  let bytes := bytesOfNat 16 header ++ bytesOfNat 128 body
  s.modLink l fun k => if k.takes && !s.linkHeld l then k.transmit bytes else { k with waiting := k.waiting ++ [bytes] }

/-- A token for a link's endpoint leaves the module. -/
def State.leaveByLink (s : State) (l : Nat) (dst : Tag) (dport : Nat) (t : Tok) : State := s.sendByLink l (t.header dst dport) t.body

/-- The header of a token with no payload that goes to an output port of another module's tile: a slot return, of the arc class (R319), or a
seam's acknowledgement, of the system class (R379). -/
def portHeader (dst : Tag) (port cls type : Nat) : Nat := dst.toNat + 2 ^ 24 * port + 2 ^ 28 * cls + 2 ^ 30 * type

end Sys2Proof.Machine
end

