-- ==== Sys2Proof/Machine/Port.lean ====
section
/-! DEFINITION. The port engine (R316 to R342): arcs, firings, colophon steps, mail and its refusal list, and the instructions of the
port engine but for DREQ and XLATE. -/

namespace Sys2Proof.Machine

/-! ## Ports -/

/-- An input port of a tile. -/
def State.inPort (s : State) (t p : Nat) : InPort := (s.tile t).port.inputs.get InPort.reset p

/-- An output port of a tile. -/
def State.outPort (s : State) (t p : Nat) : OutPort := (s.tile t).port.outputs.get OutPort.reset p

/-- The state with an input port changed. -/
def State.modIn (s : State) (t p : Nat) (f : InPort → InPort) : State :=
  s.modPort t fun e => { e with inputs := e.inputs.put p (f (e.inputs.get InPort.reset p)) }

/-- The state with an output port changed. -/
def State.modOut (s : State) (t p : Nat) (f : OutPort → OutPort) : State :=
  s.modPort t fun e => { e with outputs := e.outputs.put p (f (e.outputs.get OutPort.reset p)) }

/-- Level of a colophon token, if it is one. -/
def Tok.colophon? (k : Tok) : Option Nat :=
  match k.kind with | .colophon l => some l | .data | .proof _ | .probe | .seam => none

/-- A token that a handler may meet: data or a colophon (R321, R328, R329). -/
def Tok.isHead (k : Tok) : Bool :=
  match k.kind with | .data | .colophon _ => true | .proof _ | .probe | .seam => false

/-- A proof mark. -/
def Tok.isProof (k : Tok) : Bool := match k.kind with | .proof _ => true | .data | .colophon _ | .probe | .seam => false

/-- A drain probe. -/
def Tok.isProbe (k : Tok) : Bool := match k.kind with | .probe => true | .data | .colophon _ | .proof _ | .seam => false

/-- The head of a port (R321): its resident token, or its oldest token if a handler may meet it. -/
def InPort.head (p : InPort) : Option Tok := p.queue.head?.filter Tok.isHead

/-- A data token at the head of a sticky port becomes resident (R322). -/
def InPort.rest (p : InPort) : InPort :=
  match p.queue with
  | k :: _ => if p.sticky ≠ 0 ∧ p.uses.isNone ∧ k.kind = .data then { p with uses := some p.sticky } else p
  | [] => p

/-- A token reaches the queue of a port. -/
def InPort.push (p : InPort) (k : Tok) : InPort := { p with queue := p.queue ++ [k] }.rest

/-- The oldest token leaves the queue. -/
def InPort.pop (p : InPort) : InPort := { p with queue := p.queue.tail, uses := none }.rest

/-- The tokens of a port that are not resident: a resident sticky token is not in its port's queue (R422). -/
def InPort.strays (p : InPort) : List Tok := if p.uses.isSome then p.queue.tail else p.queue

/-- The oldest token of a port, its resident sticky token apart. -/
def InPort.front (p : InPort) : Option Tok := p.strays.head?

/-- The token after the resident one, or the oldest, leaves the queue. -/
def InPort.dropFront (p : InPort) : InPort :=
  if p.uses.isSome then { p with queue := p.queue.take 1 ++ p.queue.drop 2 } else p.pop

/-- The oldest token of a port is a proof mark. -/
def InPort.atProof (p : InPort) : Bool := match p.front with | some k => k.isProof | none => false

/-- A forme input of some chase ends at a port of a tag (R317). -/
def State.inputAt (s : State) (g : Tag) (p : Nat) : Bool := s.chases.any fun c => c.2.inputs.any fun i => i.2.tag == g && i.2.port == p

/-- The place to which messages for a tag go: its tile, or none of the wafer's. -/
def State.placeOf (s : State) (g : Tag) : Nat := (s.tileOf g).getD 0xFFFFFF

/-- The producer of a token that came on an arc (R319): the tag and output port that the token names; or the tag that its arc was imposed
with, which follows the producer's actor where it migrates (R378). -/
def InPort.producer (d : InPort) (k : Tok) : Tag × Nat :=
  match d.src with
  | some (g, q) => if q = k.sport then (g, q) else (k.stag, k.sport)
  | none => (k.stag, k.sport)

/-- The slot of a consumed token goes back to its producer (R319, R355). -/
def State.returnSlot (s : State) (t p : Nat) (k : Tok) : State :=
  match k.dreq, k.via with
  | some (g, q), _ => s.post (.slot (s.placeOf g) g q k.seq t)
  | none, some l => s.sendByLink l (portHeader k.stag k.sport arcClass 8) 0
  | none, none =>
    if s.inputAt (s.tileTag t) p then s.post (.formeSlot (s.tileTag t) p)
    else
      let g := (s.inPort t p).producer k
      s.post (.slot (s.placeOf g.1) g.1 g.2 k.seq t)

/-- The ports bound to an entry (R321), lowest first. -/
def PortEngine.group (e : PortEngine) (entry : BitVec 17) : List Nat :=
  (e.inputs.filter fun p => p.2.bound && p.2.entry == entry).map Prod.fst

/-- The ports that are held to one structure with a port (R326). -/
def PortEngine.kin (e : PortEngine) (p : Nat) : List Nat :=
  let d := e.inputs.get InPort.reset p
  if d.bound then e.group d.entry else [p]

/-- The ports of a group are not sealed. -/
def PortEngine.unseal (e : PortEngine) (g : List Nat) : PortEngine :=
  { e with inputs := e.inputs.map fun i => if g.contains i.1 then (i.1, { i.2 with sealed_ := none }) else i }

/-- After a colophon of a level has been consumed from a port: the port seals, and its group unseals once all of it is sealed (R326). -/
def PortEngine.seal (e : PortEngine) (p level : Nat) : PortEngine :=
  let d := e.inputs.get InPort.reset p
  if level < d.inv then e
  else
    let e := { e with inputs := e.inputs.put p { d with sealed_ := some (d.sealed_.getD level) } }
    let kin := e.kin p
    if kin.all fun q => (e.inputs.get InPort.reset q).sealed_.isSome then e.unseal kin else e

/-- A port's oldest token is consumed (R323): it leaves the queue, its slot returns, and a colophon seals (R326). -/
def State.consumeAt (s : State) (t p : Nat) : State :=
  match (s.inPort t p).queue with
  | [] => s
  | k :: _ =>
    let s := (s.returnSlot t p k).modIn t p InPort.pop
    match k.colophon? with
    | some l => s.modPort t fun e => e.seal p l
    | none => s

/-- The oldest token of a port, resident ones apart, leaves the queue and its slot returns. -/
def State.consumeFront (s : State) (t p : Nat) : State :=
  match (s.inPort t p).front with
  | some k => (s.returnSlot t p k).modIn t p InPort.dropFront
  | none => s

/-- Every one of some output ports has a free slot and no seam outstanding (R319, R379). -/
def State.hasSlots (s : State) (t : Nat) (ps : List Nat) : Bool :=
  ps.all fun p => let o := s.outPort t p; decide (o.slots ≠ 0) && !o.seamed

/-- A token of a kind as an output port sends it (R316, R319). -/
def OutPort.token (o : OutPort) (t p : Nat) (kind : TokKind) (payload : Token) (len : Nat) : Tok :=
  { kind := kind, payload := payload, len := len, stag := roleTag t, sport := p, seq := o.seq, status := 0, row := 0, dreq := none, via := none }

/-- An output port sends a token: it takes the port's seq and a slot (R319). -/
def State.sendOn (s : State) (t p : Nat) (kind : TokKind) (payload : Token) (len : Nat) : State :=
  let o := s.outPort t p
  (s.modOut t p fun o => { o with seq := o.seq + 1, slots := o.slots - 1 }).post
    (.token (s.placeOf o.dtag) o.dtag o.dport (o.token t p kind payload len))

/-- A tokens of one kind on each of some output ports (R324, R325, R328, R421). -/
def State.sendAll (s : State) (t : Nat) (ps : List Nat) (kind : TokKind) (payload : Token) (len : Nat) : State :=
  ps.foldl (fun s p => s.sendOn t p kind payload len) s

/-- The output ports with an arc, on which marks and probes go (R328, R421), and the ports that forward colophons. -/
def PortEngine.arcs (e : PortEngine) : List Nat := (e.outputs.filter fun p => p.2.arc).map Prod.fst
def PortEngine.autos (e : PortEngine) : List Nat := (e.outputs.filter fun p => p.2.arc && p.2.auto).map Prod.fst

/-! ## Arrivals (R17, R319, R420) -/

/-- Whether a message before place `n` of those in flight travels to the same input port of the same tag: arcs deliver in order (R34). -/
def earlierToken (net : List Msg) (n : Nat) (dst : Tag) (dport : Nat) : Bool :=
  (net.take n).any fun m => match m with
    | .token _ g p _ => g == dst && p == dport
    | .seam _ g p _ _ _ => g == dst && p == dport
    | _ => false

/-- A token discarded at a tile from which its tag has moved is counted in the tile's fault log (R420). -/
def State.discardAt (s : State) (t : Nat) (g : Tag) : State :=
  s.modTile t fun y => { y with place := { y.place with faultLog := y.place.faultLog ++ [word g.toNat] } }

/-- A tile is the stub of a migrated tag (R378). -/
def State.isStub (s : State) (t : Nat) (g : Tag) : Bool := match (s.tile t).port.stub with | some b => b.tag == g | none => false

/-- TOKEN_ARRIVAL (R316, R322): a token at the head of its arc reaches the queue of its port, or the link of its endpoint. A mark or a probe
that a DREQ port sent ends at the DRAM actors, and its slot returns (assumption 48). -/
def execTokenArrival (n : Nat) (s : State) : Host.Outcome State Fault Refusal :=
  match s.take n with
  | some (.token t dst dport k, s') =>
    if earlierToken s.net n dst dport then .next s
    else if let some l := Tag.linkOf dst then .next (s'.leaveByLink l dst dport k)
    else if Tag.kind dst = 3 then .next (s'.post (.slot (s'.placeOf k.stag) k.stag k.sport k.seq t))
    else if !(s.tile t).place.live then .next s
    else if s.tileOf dst = some t then .next (s'.modIn t dport (·.push k))
    else if s.isStub t dst then .next s
    else .next (s'.discardAt t dst)
  | _ => .next s

/-- A slot returned to a feeding port for a token, or a request, sent before step 5 of a migration pays a debt that the step latched
(R378). -/
def State.payDebt (s : State) (t p : Nat) (sent : BitVec 32) : State :=
  let one (d : Nat × Nat) : Option (Nat × Nat) :=
    if d.1 = 16 * t + p then (if d.2 ≤ 1 then none else some (d.1, d.2 - 1)) else some d
  let pay (m : Migration) : Migration :=
    if below sent (m.sent.get 0 (16 * t + p)) then { m with debts := m.debts.filterMap one } else m
  { s with rebals := s.rebals.map fun r => (r.1, { r.2 with migration := r.2.migration.map pay }) }

/-- A slot of a forme input is free again: the oldest token that waits for one takes it (R319, R426). -/
def FormeInput.returned (i : FormeInput) : FormeInput × Option Tok :=
  match i.waiting with
  | k :: ks => ({ i with waiting := ks }, some k)
  | [] => ({ i with slots := min 8 (i.slots + 1) }, none)

/-- The slot of a forme input's token returns (R319, R426). -/
def State.returnFormeSlot (s : State) (g : Tag) (p : Nat) : State :=
  let mine (i : FormeInput) : Bool := i.tag == g && i.port == p
  let back (i : FormeInput) : FormeInput := if mine i then i.returned.1 else i
  let sent := s.chases.flatMap fun c => c.2.inputs.filterMap fun i => if mine i.2 then i.2.returned.2 else none
  let s := { s with chases := s.chases.map fun c => (c.1, { c.2 with inputs := c.2.inputs.map fun i => (i.1, back i.2) }) }
  sent.foldl (fun s k => s.post (.token (s.placeOf g) g p k)) s

/-- SLOT_RETURN (R319). -/
def execSlotReturn (n : Nat) (s : State) : Host.Outcome State Fault Refusal :=
  match s.take n with
  | some (.slot t g p seq _, s') =>
    if s.tileOf g = some t then .next ((s'.modOut t p fun o => { o with slots := min 8 (o.slots + 1) }).payDebt t p seq)
    else if s.isStub t g then .next s
    else .next s'
  | some (.formeSlot g p, s') => .next (s'.returnFormeSlot g p)
  | _ => .next s

/-! ## Firings (R321 to R325) -/

/-- The ready groups of a tile (R321), each by its entry and its ports, the one with the lowest-numbered port first. -/
def PortEngine.readyGroups (e : PortEngine) : List (BitVec 17 × List Nat) :=
  let bound := e.inputs.filter fun p => p.2.bound
  let entries := (bound.map fun p => p.2.entry).eraseDups
  (entries.map fun x => (x, e.group x)).filter fun g => g.2.all fun p => (e.inputs.get InPort.reset p).head.isSome

/-- The port engine tests for readiness: no firing runs, and nothing holds the engine (R323, R377, R421). -/
def PortEngine.tests (e : PortEngine) : Bool := e.firing.isNone && !e.held && !e.frozen && !e.probed

/-- A ready group qualifies for a colophon step (R325). -/
def PortEngine.stepGroup (e : PortEngine) (g : List Nat) : Bool :=
  !e.desc.cfire && g.all fun p =>
    let d := e.inputs.get InPort.reset p
    d.auto && (match d.head with | some k => k.colophon?.isSome | none => false)

/-- The highest level among the colophons at some heads. -/
def PortEngine.topLevel (e : PortEngine) (g : List Nat) : Nat :=
  g.foldl (fun l p => match (e.inputs.get InPort.reset p).head with
    | some k => max l (k.colophon?.getD 0)
    | none => l) 0

/-- COLOPHON_STEP (R325): it waits for a slot on every port that it sends on, and leaves no port of the group sealed (R326). -/
def execColophonStep (t : Nat) (s : State) : Host.Outcome State Fault Refusal :=
  let e := (s.tile t).port
  match e.readyGroups with
  | [] => .next s
  | (_, g) :: _ =>
    if e.tests && e.stepGroup g && s.hasSlots t e.autos then
      .next (((g.foldl (fun s p => s.consumeAt t p) s).modPort t (·.unseal g)).sendAll t e.autos (.colophon (e.topLevel g)) 0 0)
    else .next s

/-- FIRING_START (R323): it waits for a free context of the core on which firings run. -/
def execFiringStart (t : Nat) (s : State) : Host.Outcome State Fault Refusal :=
  let e := (s.tile t).port
  let c := e.desc.fcore.toNat
  match e.readyGroups, s.freeCtxs t c with
  | (entry, g) :: _, x :: _ =>
    if e.tests && !e.stepGroup g then
      let budget := match g with | p :: _ => (e.inputs.get InPort.reset p).budget | [] => 0
      let f : Firing :=
        { core := c, ctx := x, entry := entry, group := g, consumed := []
          residents := g.filter fun p => (e.inputs.get InPort.reset p).uses.isSome, rebinds := [] }
      .next ((s.modPort t fun e => { e with firing := some f }).allocate ⟨t, c, x⟩ (.firing entry.toNat) (entry.setWidth 64)
        (e.desc.args.setWidth 64) 0 (budget.setWidth 32) e.desc.fcap)
    else .next s
  | _, _ => .next s

/-- The firing that a context runs. -/
def State.firingOf (s : State) (u : Cur) : Option Firing :=
  match (s.tile u.tile).port.firing with
  | some f => if f.core = u.core ∧ f.ctx = u.ctx then some f else none
  | none => none

/-- The ports of a group that the close consumes besides the residents: nothing was consumed from them, and they have a head (R324). -/
def PortEngine.closing (e : PortEngine) (f : Firing) : List (Nat × InPort × Tok) :=
  f.group.filterMap fun p =>
    let d := e.inputs.get InPort.reset p
    if f.residents.contains p || f.consumed.contains p then none else d.head.map fun k => (p, d, k)

/-- The tokens that the close consumes, by port: a resident token at its last use, and the heads of the ports from which nothing was
consumed. -/
def PortEngine.spent (e : PortEngine) (f : Firing) : List (Nat × InPort × Tok) :=
  (f.residents.filterMap fun p =>
    let d := e.inputs.get InPort.reset p
    if d.uses.any (· ≤ 1) then d.head.map fun k => (p, d, k) else none) ++ e.closing f

/-- The trap of a firing close (R324): [3:0] the port, the lowest at fault, and [5:4] the level. -/
def PortEngine.closeTrap (e : PortEngine) (f : Firing) : Option (Nat × Nat) :=
  ((sortBy (·.1) (e.spent f)).findSome? fun q => match q.2.2.colophon? with
    | some l => if q.2.1.auto then none else some (q.1, l)
    | none => q.2.1.sealed_.map fun l => (q.1, l))

/-- The levels of the forward set (R324). -/
def PortEngine.forwards (e : PortEngine) (f : Firing) : List Nat := (e.closing f).filterMap fun q => q.2.2.colophon?

/-- A resident token loses a use, and is consumed at the last (R322, R324). -/
def State.useResident (s : State) (t p : Nat) : State :=
  match (s.inPort t p).uses with
  | some n => if n ≤ 1 then s.consumeAt t p else s.modIn t p fun d => { d with uses := some (n - 1) }
  | none => s

/-- A change of binding is made (R327, R335): bit 17 unbinds. -/
def InPort.rebind (d : InPort) (v : Word) : InPort :=
  if v.getLsbD 17 then { d with bound := false, entry := 0, budget := 0 }
  else { d with bound := true, entry := v.setWidth 17, budget := (v >>> 40).setWidth 24 }

/-- The firing ends: bindings that waited for its end take effect (R327). -/
def State.endFiring (s : State) (t : Nat) (f : Firing) : State :=
  let s := f.rebinds.foldl (fun s r => s.modIn t r.port (·.rebind r.value)) s
  s.modPort t fun e => { e with firing := none }

/-- The firing close (R324) of a firing that may close: its three steps, and its end. -/
def State.closeFiring (s : State) (t : Nat) (f : Firing) : State :=
  let e := (s.tile t).port
  let takes := (e.closing f).map (·.1)
  let levels := e.forwards f
  let s := f.residents.foldl (fun s p => s.useResident t p) s
  let s := takes.foldl (fun s p => s.consumeAt t p) s
  let s := if levels.isEmpty then s else s.sendAll t e.autos (.colophon (levels.foldl max 0)) 0 0
  s.endFiring t f

/-! ## Instructions that act once in a gang (R330, R353) -/

/-- The leader's result for a register, as its followers receive it. -/
def State.leaderResult (s : State) (lead : Cur) (vector : Bool) (n : Nat) : Payload :=
  let k := s.ctx lead
  let ofNat (v : Nat) : Payload := if vector then .vec (BitVec.ofNat 1024 v) else .word (word v)
  match (s.core lead.tile lead.core).binding lead.ctx vector n with
  | some b => ofNat ((b.open_.getLast?.map (·.value)).getD 0)
  | none =>
    match (k.flights.reverse.find? fun f => f.dest == (if vector then Dest.v n else .g n)) with
    | some f => f.value
    | none => if vector then .vec (k.v n) else .word (k.g n)

/-- The leader of the gang of the context under way. -/
def State.leader (s : State) : Cur :=
  match s.myTile.gangOf s.cur.core s.cur.ctx with
  | some g => (match g.members.head? with | some l => ⟨s.cur.tile, l.1, l.2⟩ | none => s.cur)
  | none => s.cur

/-- An instruction with no result that acts once, for the leader of a gang. -/
def onceNone (o : Opnd) (use : Use) (body : State → State × Act) (s : State) : Host.Outcome State Fault Refusal :=
  .next (runGang false o.len o.mark use .none body (fun s => (s, .done)) s)

/-- An instruction with a single-cycle result in g that acts once: the followers receive the leader's result. -/
def onceG (o : Opnd) (use : Use) (body : State → State × Act) (s : State) : Host.Outcome State Fault Refusal :=
  .next (runGang false o.len o.mark use (.g [] [dn o]) body (fun s =>
    (match s.leaderResult s.leader false (dn o) with | .word w => s.wg (dn o) w | _ => s, .done)) s)

/-- An instruction with a long-latency result that acts once. -/
def onceLong (vector : Bool) (o : Opnd) (use useF : Use) (body : State → State × Act) (s : State) : Host.Outcome State Fault Refusal :=
  .next (runGang false o.len o.mark use useF body (fun s =>
    let v := s.leaderResult s.leader vector (dn o)
    (if vector then s.lv (dn o) v o.len else s.lg (dn o) v o.len, .done)) s)

/-! ## SEND (R331) -/

/-- Port number of field a. -/
def portNum (o : Opnd) : Nat := aNum o

/-- `%einfo` of PORT_UNBOUND and PORT_PROTOCOL (R194). -/
def unboundInfo (p : Nat) (output : Bool) : Word := word (p + 16 * output.toNat)
def protocolInfo (p level : Nat) : Word := word (p + 16 * level)

/-- A SEND: its checks, its waits and its token. `what` gives the token's kind, payload and length, or the trap. -/
def sendBody (o : Opnd) (what : State → Except Act (TokKind × Token × Nat)) (s : State) : State × Act :=
  let t := s.cur.tile
  let p := portNum o
  if !(s.outPort t p).arc then (s, .trap .portUnbound (unboundInfo p true))
  else match what s with
    | .error a => (s, a)
    | .ok (kind, payload, len) =>
      if s.owesAt 2 then (s, .wait (.fence 2 2))
      else if !s.hasSlots t [p] then (s, .wait (.send p))
      else (s.sendOn t p kind payload len, .done)

/-- The fault of a 128-byte block of T that an instruction names (R331, R338, R354). -/
def State.blockFault (s : State) (a align : Nat) (write : Bool) : Option (Cause × Word) := s.areaFault a 128 align write

/-- A 128-byte block of T under the context's key, or the trap of an uncorrectable unit (R140). -/
def State.readBlock (s : State) (a : Nat) : Except Act Token :=
  match s.badLocal s.cur.tile s.cur.core .t s.myKey a 128 with
  | some u => .error (.trap .localEcc (infoM u 0 3 false))
  | none => .ok (BitVec.ofNat 1024 (s.readLocal s.cur.tile s.cur.core .t s.myKey a 128))

/-- SENDV (R331). -/
def execSendv (o : Opnd) (s : State) : Host.Outcome State Fault Refusal :=
  onceNone o ⟨[], [], [dn o], [], [], []⟩ (sendBody o fun s => .ok (.data, s.rv (dn o), 16)) s

/-- SENDT (R331). -/
def execSendt (o : Opnd) (s : State) : Host.Outcome State Fault Refusal :=
  onceNone o (.g [dn o] []) (sendBody o fun s =>
    let a := (s.rg (dn o)).toNat
    match s.blockFault a 16 false with
    | some (c, i) => .error (.trap c i)
    | none => (s.readBlock a).map fun v => (.data, v, 16)) s

/-- SENDG (R331). -/
def execSendg (o : Opnd) (s : State) : Host.Outcome State Fault Refusal :=
  onceNone o (.g [dn o] []) (sendBody o fun s => .ok (.data, (s.rg (dn o)).setWidth 1024, 1)) s

/-- SENDC (R331). -/
def execSendc (o : Opnd) (s : State) : Host.Outcome State Fault Refusal :=
  onceNone o (.g [dn o] []) (sendBody o fun s =>
    let v := (s.rg (dn o)).toNat
    if 4 ≤ v then .error (.trap .portProtocol (protocolInfo (portNum o) (v % 4))) else .ok (.colophon v, 0, 0)) s

/-! ## RECV, PEEK and FWDC (R332 to R334) -/

/-- The handler under way is a firing. -/
def State.inFiring (s : State) : Bool := (s.firingOf s.cur).isSome

/-- The firing under way has consumed from a port. -/
def State.markConsumed (s : State) (p : Nat) : State :=
  match s.firingOf s.cur with
  | some f => s.modPort s.cur.tile fun e => { e with firing := some { f with consumed := p :: f.consumed } }
  | none => s

/-- `%einfo` of STICKY_MISUSE (R194). -/
def InPort.stickyInfo (d : InPort) (p : Nat) : Word := word (p + 16 * d.uses.getD 0)

/-- A RECV: its checks and its wait, and what it does with the head's payload. -/
def recvBody (o : Opnd) (before : State → Option (Cause × Word)) (give : State → Token → State) (s : State) : State × Act :=
  let t := s.cur.tile
  let p := portNum o
  let d := s.inPort t p
  if !d.arc then (s, .trap .portUnbound (unboundInfo p false))
  else match before s with
    | some (c, i) => (s, .trap c i)
    | none =>
      match d.head with
      | none => (s, .wait (.recv p))
      | some k =>
        match k.colophon? with
        | some l => (s, .trap .portProtocol (protocolInfo p l))
        | none =>
          match d.sealed_ with
          | some l => (s, .trap .portProtocol (protocolInfo p l))
          | none =>
            if d.sticky ≠ 0 ∧ !s.inFiring then (s, .trap .stickyMisuse (d.stickyInfo p))
            else if k.status.toNat = 0x8000 + Cause.dramPoison.code then (s, .trap .dramPoison (infoM 0 4 3 false))
            else
              let s := give s k.payload
              (if d.uses.isSome then s else (s.consumeAt t p).markConsumed p, .done)

/-- RECVV (R332). -/
def execRecvv (o : Opnd) (s : State) : Host.Outcome State Fault Refusal :=
  onceLong true o ⟨[], [], [], [dn o], [], []⟩ ⟨[], [], [], [dn o], [], []⟩
    (recvBody o (fun _ => none) fun s v => s.lv (dn o) (.vec v) o.len) s

/-- RECVG (R332). -/
def execRecvg (o : Opnd) (s : State) : Host.Outcome State Fault Refusal :=
  onceLong false o (.g [] [dn o]) (.g [] [dn o]) (recvBody o (fun _ => none) fun s v => s.lg (dn o) (.word (v.setWidth 64)) o.len) s

/-- RECVT (R332). -/
def execRecvt (o : Opnd) (s : State) : Host.Outcome State Fault Refusal :=
  onceNone o (.g [dn o] []) (recvBody o (fun s => s.blockFault (s.rg (dn o)).toNat 16 true) fun s v =>
    s.writeLocal s.cur.tile s.cur.core .t s.myKey (s.rg (dn o)).toNat 128 v.toNat) s

/-- The status of an input port (R333). -/
def InPort.peek (d : InPort) : Word :=
  let head : Nat := match d.head with
    | some k =>
      let l := k.colophon?
      1 + 2 * l.isSome.toNat + 4 * l.getD 0 + 16 * d.uses.isSome.toNat + 2 ^ 32 * k.seq.toNat
    | none => 0
  word (head + 32 * d.uses.getD 0 + 8192 * d.sealed_.isSome.toNat + 2 ^ 14 * d.strays.length + 2 ^ 18 * d.atProof.toNat
    + 2 ^ 19 * d.bound.toNat)

/-- PEEK (R333). -/
def execPeek (o : Opnd) (s : State) : Host.Outcome State Fault Refusal :=
  onceG o (.g [] [dn o]) (fun s =>
    let p := portNum o
    let d := s.inPort s.cur.tile p
    if !d.arc then (s, .trap .portUnbound (unboundInfo p false))
    else if d.sticky ≠ 0 ∧ !s.inFiring then (s, .trap .stickyMisuse (d.stickyInfo p))
    else compute o (fun _ => d.peek) s) s

/-- FWDC (R334). -/
def execFwdc (o : Opnd) (s : State) : Host.Outcome State Fault Refusal :=
  onceNone o (.g [dn o] []) (fun s =>
    let t := s.cur.tile
    let p := portNum o
    let d := s.inPort t p
    let v := s.rg (dn o)
    let outs := (List.range 16).filter fun q => v.getLsbD q
    if !d.arc then (s, .trap .portUnbound (unboundInfo p false))
    else match outs.find? fun q => !(s.outPort t q).arc with
      | some q => (s, .trap .portUnbound (unboundInfo q true))
      | none =>
        match d.head with
        | none => (s, .wait (.recv p))
        | some k =>
          match k.colophon? with
          | none => (s, .trap .portProtocol (protocolInfo p 0))
          | some l =>
            if s.owesAt 2 then (s, .wait (.fence 2 2))
            else match outs.find? fun q => !s.hasSlots t [q] with
              | some q => (s, .wait (.send q))
              | none => ((s.sendAll t outs (.colophon l) 0 0).consumeAt t p |>.markConsumed p, .done)) s

/-! ## PROOF, BINDH and PSTAT (R335 to R337) -/

/-- PROOF (R337). -/
def execProof (o : Opnd) (s : State) : Host.Outcome State Fault Refusal :=
  onceG o (.g [] [dn o]) (compute o fun s =>
    let e := s.myTile.port
    let marks := (List.range 16).foldl (fun n p => n + 2 ^ p * (e.inputs.get InPort.reset p).atProof.toNat) 0
    word (e.proofAt.toNat + 2 ^ 32 * (if marks = 0 then 0 else 1) + 2 ^ 33 * marks)) s

/-- The trap of a binding's entry (R335), which the BINDH itself is named for. -/
def entryTrap (s : State) (v : Word) : Option Act :=
  if !v.getLsbD 17 && v.getLsbD 0 then some (.trap .codeAlign s.me.pc) else none

/-- BINDH of an input port (R335, k = 0). -/
def execBindh (o : Opnd) (s : State) : Host.Outcome State Fault Refusal :=
  onceNone o (.g [dn o] []) (fun s =>
    let t := s.cur.tile
    let p := portNum o
    let v := s.rg (dn o)
    let d := s.inPort t p
    match entryTrap s v with
    | some a => (s, a)
    | none =>
      if !d.arc then (s, .trap .portUnbound (unboundInfo p false))
      else if d.uses.isSome ∧ d.bound ∧ !v.getLsbD 17 ∧ v.setWidth 17 ≠ d.entry then (s, .trap .stickyMisuse (d.stickyInfo p))
      else match s.myTile.port.firing with
        | some f => (s.modPort t fun e => { e with firing := some { f with rebinds := f.rebinds ++ [⟨p, v⟩] } }, .done)
        | none => (s.modIn t p (·.rebind v), .done)) s

/-- An unbound mail index. -/
def MailBinding.reset : MailBinding := { entry := 0, valid := false, budget := 0 }

/-- BINDH of a mail index (R335, k = 1). -/
def execBindhMail (o : Opnd) (s : State) : Host.Outcome State Fault Refusal :=
  onceNone o (.g [dn o] []) (fun s =>
    let v := s.rg (dn o)
    match entryTrap s v with
    | some a => (s, a)
    | none =>
      let b : MailBinding := if v.getLsbD 17 then MailBinding.reset
        else { entry := v.setWidth 17, valid := true, budget := (v >>> 40).setWidth 24 }
      (s.modPort s.cur.tile fun e => { e with mails := e.mails.put (portNum o) b }, .done)) s

/-- BINDH of the mail limit (R335, k = 2). -/
def execBindhMlimit (o : Opnd) (s : State) : Host.Outcome State Fault Refusal :=
  onceNone o (.g [dn o] []) (fun s =>
    let n := min 64 (s.rg (dn o)).toNat
    (s.modPort s.cur.tile fun e => { e with desc := { e.desc with mlimit := BitVec.ofNat 7 n } }, .done)) s

/-- PSTAT of an input port (R336, k = 0). -/
def execPstat (o : Opnd) (s : State) : Host.Outcome State Fault Refusal :=
  onceG o (.g [] [dn o]) (compute o fun s => (s.inPort s.cur.tile (portNum o)).peek) s

/-- PSTAT of an output port (R336, k = 1). -/
def execPstatOutput (o : Opnd) (s : State) : Host.Outcome State Fault Refusal :=
  onceG o (.g [] [dn o]) (compute o fun s =>
    let p := s.outPort s.cur.tile (portNum o)
    word (p.slots + 16 * p.arc.toNat + 32 * p.auto.toNat + 2 ^ 32 * p.seq.toNat)) s

/-- Mail handlers running on a tile (R339). -/
def State.mailsRunning (s : State) (t : Nat) : Nat :=
  ((s.ctxList t).filter fun u =>
    let k := s.ctx u
    k.status != .free && (match k.handler with | .mail _ _ _ _ _ _ => true | .none | .firing _ | .item _ _ => false)).length

/-- The mail limit in force: values above 64 act as 64 (R320). -/
def PortEngine.limit (e : PortEngine) : Nat := min 64 e.desc.mlimit.toNat

/-- PSTAT of mail (R336, k = 2). -/
def execPstatMail (o : Opnd) (s : State) : Host.Outcome State Fault Refusal :=
  onceG o (.g [] [dn o]) (compute o fun s =>
    let e := s.myTile.port
    word (s.mailsRunning s.cur.tile + 2 ^ 7 * e.reservations.length + 2 ^ 14 * e.refusals.length + 2 ^ 21 * e.limit)) s

/-! ## Mail (R338 to R342) -/

/-- The sender that a context is. -/
def Cur.sender (u : Cur) : Sender := ⟨u.tile, u.core, u.ctx⟩

/-- The context that a sender is. -/
def Sender.cur (r : Sender) : Cur := ⟨r.tile, r.core, r.ctx⟩

/-- The state with a context's standing as a sender changed. -/
def State.modSender (s : State) (u : Cur) (f : SenderState → SenderState) : State :=
  s.modCtx u fun k => { k with sender := f k.sender }

/-- Two tags name one tile. -/
def State.sameTile (s : State) (a b : Tag) : Bool := a == b || ((s.tileOf a).isSome && s.tileOf a == s.tileOf b)

/-- Withdrawals for a context that is listed or notified, except at a target that stays (R340). -/
def State.withdraw (s : State) (u : Cur) (stays : Option Tag) : State :=
  let k := (s.ctx u).sender
  let gone (g : Option Tag) : Option Tag := g.filter fun a => match stays with | some b => !s.sameTile a b | none => true
  let tell (s : State) (g : Option Tag) : State :=
    match g with | some a => s.post (.withdrawal (s.placeOf a) u.sender) | none => s
  let l := gone k.listed
  let r := gone k.reserved
  (tell (tell s l) r).modSender u fun k =>
    { k with
      listed := if l.isSome then none else k.listed
      reserved := if r.isSome then none else k.reserved
      notice := if (gone k.notice).isSome then none else k.notice }

/-- A context has a MAIL without an answer (R338 step 4). -/
def Ctx.mailOpen (k : Ctx) : Bool := k.flights.any fun f => match f.value with | .answer _ _ => true | _ => false

/-- MAIL from its step 4 on (R338): it waits with the event entry that it has reserved. -/
def mailBody (o : Opnd) (t : Nat) (s : State) : State × Act :=
  let u := s.cur
  let a := s.rg (an o)
  let tag : Tag := a.setWidth 24
  let reply := a.getLsbD 28
  let wait (w : Wait) : State × Act := (s.modMe fun k => { k with kept := some (0, reply) }, .wait w)
  if s.me.mailOpen then wait .mailAnswer
  else if s.owesAt 2 then wait (.fence 2 2)
  else match s.readBlock (s.rg (bn o)).toNat with
    | .error x => ((s.modMe fun k => { k with kept := some (0, reply) }).dropKept u, x)
    | .ok v =>
      let s := s.withdraw u (some tag)
      let id := (s.myTile.port.mailIds.get 1 u.core)
      let s := s.modPort u.tile fun e => { e with mailIds := e.mailIds.put u.core (id + 1) }
      ((s.post (.mail t tag (bits a 24 4) u.sender id v reply)).launch (.g (dn o)) (.answer u.core id) o.len, .done)

/-- MAIL (R338): executed again after its wait, it goes on with the entry that it has reserved. -/
def execMail (o : Opnd) (s : State) : Host.Outcome State Fault Refusal :=
  onceLong false o (.g [an o, bn o] [dn o]) (.g [] [dn o]) (fun s =>
    let a := s.rg (an o)
    let b := (s.rg (bn o)).toNat
    if s.me.kept.isSome then mailBody o (s.placeOf (a.setWidth 24)) s
    else match s.blockFault b 128 false with
    | some (c, i) => (s, .trap c i)
    | none =>
      match s.tileOf (a.setWidth 24) with
      | none => (s, .trap .mailTarget (word (bits a 0 28)))
      | some t =>
        if !a.getLsbD 28 then mailBody o t s
        else if !s.myCore.evq.hasRoom then (s, .trap .eventOverflow (word 6))
        else mailBody o t (s.reserveEvent s.cur.tile s.cur.core)) s

/-- Contexts of a tile that a mail could take: those of the core with the most free contexts, lowest-numbered on ties (R339). -/
def State.mailCtx (s : State) (t : Nat) : Option (Nat × Nat) :=
  let best := (List.range 4).foldl (fun (m : Option (Nat × Nat × Nat)) c =>
    match s.freeCtxs t c with
    | [] => m
    | x :: xs => match m with
      | some (n, _, _) => if n < xs.length + 1 then some (xs.length + 1, c, x) else m
      | none => some (xs.length + 1, c, x)) none
  best.map fun b => (b.2.1, b.2.2)

/-- The tile takes no mail handlers: frozen by a migration or a hold, or drained (R377, R421). -/
def PortEngine.mailStopped (e : PortEngine) : Bool := e.held || e.frozen || e.probed

/-- A mail is listed and refused (R340): the answer. -/
def PortEngine.refuse (e : PortEngine) (src : Sender) (g : Tag) : PortEngine × Nat :=
  if e.refusals.any (·.1 == src) then (e, 1)
  else if 64 ≤ e.refusals.length then (e, 2)
  else ({ e with refusals := e.refusals ++ [(src, g)] }, 1)

/-- The tile answers a mail: it accepts it, or lists and refuses its sender (R339, R340). -/
def State.takeMail (s : State) (t : Nat) (dst : Tag) (index : Nat) (src : Sender) (ident : BitVec 32) (payload : Token) (reply : Bool) :
    State × Nat :=
  let e := (s.tile t).port
  let b := e.mails.get MailBinding.reset index
  let mine := e.reservations.any fun r => r.sender == src
  let s' := s.modPort t fun e => { e with reservations := e.reservations.filter fun r => r.sender != src }
  let open_ := mine || (e.refusals.isEmpty && decide (s.mailsRunning t + e.reservations.length < e.limit))
  if !b.valid then (s, 3)
  else match (if open_ && !e.mailStopped then s'.mailCtx t else none) with
    | some (c, x) =>
      let a := e.desc.mbase.toNat + 128 * (16 * c + x)
      let s := s'.writeLocal t c .t noKey a 128 payload.toNat
      let s := s.allocate ⟨t, c, x⟩ (.mail src.tile src.core src.ctx dst index ident) (b.entry.setWidth 64) (word a) 0 (b.budget.setWidth 32) e.desc.mcap
      (if reply then s.modPort t fun e => { e with replies := e.replies ++ [⟨c, x, src.tile, src.core, ident, false⟩] } else s, 0)
    | none =>
      let r := e.refuse src dst
      (s.modPort t fun _ => r.1, r.2)

/-- MAIL_ARRIVAL (R339, R340): mails are answered in order of arrival. -/
def execMailArrival (n : Nat) (s : State) : Host.Outcome State Fault Refusal :=
  match s.take n with
  | some (.mail t dst index src ident payload reply, s') =>
    if !(s.tile t).place.live then .next s
    else if s.tileOf dst = some t then
      let r := s'.takeMail t dst index src ident payload reply
      .next (r.1.post (.mailAnswer t src dst ident r.2 reply))
    else if s.isStub t dst then .next s
    else .next (s'.discardAt t dst)
  | _ => .next s

/-- A result that a context awaits has come: it takes the place of what it is for. -/
def State.bring (s : State) (t : Nat) (awaited value : Payload) : State :=
  let fill (f : Flight) : Flight := if f.value = awaited then { f with value := value } else f
  (s.ctxList t).foldl (fun s u =>
    if (s.ctx u).flights.any (·.value == awaited) then s.modCtx u fun k => { k with flights := k.flights.map fill } else s) s

/-- How an answer leaves its sender (R338, R340, R341): an accepted mail uses its reservation; a refused sender is listed, unless the answer
is 2, or 3, which leaves what stands at the target as it is. A notice is kept for MWAITF. -/
def SenderState.answered (k : SenderState) (target : Tag) (answer : Nat) : SenderState :=
  let gone (g : Option Tag) : Option Tag := g.filter (· != target)
  match answer with
  | 0 => { k with listed := gone k.listed, reserved := gone k.reserved, turned := none }
  | 1 => { k with listed := some target, turned := none }
  | 2 => { k with listed := gone k.listed, turned := some target }
  | _ => { k with turned := some target }

/-- MAIL_ANSWER (R338): gd is written, and a refusal frees the event entry that the mail reserved. -/
def execMailAnswer (n : Nat) (s : State) : Host.Outcome State Fault Refusal :=
  match s.take n with
  | some (.mailAnswer _ dst target ident answer reply, s') =>
    let s' := s'.bring dst.tile (.answer dst.core ident) (.word (word (answer + 2 ^ 32 * ident.toNat)))
    let s' := s'.modSender dst.cur (·.answered target answer)
    .next (if answer ≠ 0 ∧ reply then s'.modCore dst.tile dst.core fun k => { k with evq := { k.evq with held := k.evq.held - 1 } } else s')
  | _ => .next s

/-- CONTEXT_FREE_NOTICE (R340): the oldest refused sender gets a reservation and a notice. -/
def execContextFreeNotice (t : Nat) (s : State) : Host.Outcome State Fault Refusal :=
  let e := (s.tile t).port
  match e.refusals, s.mailCtx t with
  | (src, g) :: rest, some (c, x) =>
    if !e.mailStopped && decide (s.mailsRunning t + e.reservations.length < e.limit) then
      let r : Reservation := { core := c, ctx := x, sender := src, deadline := s.rtime t + 100000 }
      .next ((s.modPort t fun e => { e with refusals := rest, reservations := e.reservations ++ [r] }).post (.contextFree t src g))
    else .next s
  | _, _ => .next s

/-- An earlier message of the mail class from the same tile to the same sender is in flight: they travel one route, in order (R38). -/
def earlierMail (net : List Msg) (n origin : Nat) (dst : Sender) : Bool :=
  (net.take n).any fun m => match m with
    | .mailAnswer o d _ _ _ _ => o == origin && d == dst
    | .contextFree o d _ => o == origin && d == dst
    | _ => false

/-- NOTICE_ARRIVAL (R340, R341): the context keeps the notice; for a free context a withdrawal goes back. -/
def execNoticeArrival (n : Nat) (s : State) : Host.Outcome State Fault Refusal :=
  match s.take n with
  | some (.contextFree origin dst g, s') =>
    if earlierMail s.net n origin dst then .next s
    else if (s.ctx dst.cur).status = .free then .next (s'.post (.withdrawal origin dst))
    else .next (s'.modSender dst.cur fun k => { k with
      listed := if k.listed = some g then none else k.listed, reserved := some g, notice := some g })
  | _ => .next s

/-- RESERVATION_LAPSE (R340). -/
def execReservationLapse (t k : Nat) (s : State) : Host.Outcome State Fault Refusal :=
  match (s.tile t).port.reservations[k]? with
  | some r =>
    .next (if r.deadline ≤ s.rtime t then s.modPort t fun e => { e with reservations := e.reservations.eraseIdx k } else s)
  | none => .next s

/-- MAIL_WITHDRAWAL (R340). -/
def execMailWithdrawal (n : Nat) (s : State) : Host.Outcome State Fault Refusal :=
  match s.take n with
  | some (.withdrawal t src, s') =>
    .next (if (s.tile t).port.stub.isSome then s
      else s'.modPort t fun e => { e with
        refusals := e.refusals.filter (·.1 != src)
        reservations := e.reservations.filter (·.sender != src) })
  | _ => .next s

/-- MWAITF (R341). -/
def execMwaitf (o : Opnd) (s : State) : Host.Outcome State Fault Refusal :=
  onceLong false o (.g [an o] [dn o]) (.g [] [dn o]) (fun s =>
    let g : Tag := (s.rg (an o)).setWidth 24
    let k := s.me.sender
    if k.notice.any (s.sameTile g) then computeLong o (fun _ => 0) (s.modSender s.cur fun k => { k with notice := none })
    else if k.listed.any (s.sameTile g) && !k.turned.any (s.sameTile g) then (s, .wait .mailFree)
    else computeLong o (fun _ => 1) s) s

/-- The reply that the handler under way owes (R342). -/
def State.replyOf (s : State) (u : Cur) : Option ReplyOwed :=
  (s.tile u.tile).port.replies.find? fun r => r.core == u.core && r.ctx == u.ctx && !r.sent

/-- The reply record reaches its entry (R342), and the reply is no longer owed. -/
def State.reply (s : State) (u : Cur) (chan : Nat) (status : BitVec 16) (value : Word) : State :=
  match s.replyOf u with
  | none => s
  | some r =>
    let done (q : ReplyOwed) : ReplyOwed := if q = r then { r with sent := true } else q
    (s.modPort u.tile fun e => { e with replies := e.replies.map done }).deliverInOrder r.tile r.sender
      (mkRecord 6 chan status r.ident value)

/-- MREPLY (R342). -/
def execMreply (o : Opnd) (s : State) : Host.Outcome State Fault Refusal :=
  onceLong false o (.g [an o] [dn o]) (.g [] [dn o]) (fun s =>
    if s.owesAt 2 then (s, .wait (.fence 2 2))
    else match s.replyOf s.cur with
      | none => computeLong o (fun _ => 1) s
      | some _ =>
        let v := s.rg (an o)
        computeLong o (fun _ => 0) (s.reply s.cur 0x10 0 v)) s

end Sys2Proof.Machine
end

