-- ==== Sys2Proof/Machine/Dram.lean ====
section
/-! DEFINITION. DREQ and XLATE, the translation node's queue, walks and shootdowns, the DRAM actors' steps and duplicated pages
(R345 to R371). -/

namespace Sys2Proof.Machine

/-! ## Rows of a request -/

/-- A request writes at its home: WRITE and AMO (R360). -/
def DramReq.writes (r : DramReq) : Bool := r.op == 1 || r.op == 2

/-- Kind of page of a row. -/
def DramRow.kind (w : DramRow) : Nat := match w.entry with | some e => entryKind e.entry | none => 0

/-- The rows of a request whose translations are still to be made. -/
def DramReq.untranslated (r : DramReq) : Option DramRow := r.rows.find? (·.entry.isNone)

/-- Reply tokens of a request (R351). -/
def replyCount (op x : Nat) : Nat := if op = 3 then x + 1 else 1

/-- The reply of one row (R351). -/
def DramReq.reply (r : DramReq) (row : Nat) (status : BitVec 16) (payload : Nat) (len : Nat) : Tok :=
  { kind := .data, payload := BitVec.ofNat 1024 payload, len := len, stag := r.rq, sport := r.port, seq := r.seq, status := status, row := row
    dreq := some (r.rq, r.port), via := none }

/-- A reply is sent on its way to the reply port (R351). -/
def State.sendReply (s : State) (r : DramReq) (row : Nat) (status : BitVec 16) (payload : Nat) (len : Nat) : State :=
  s.post (.dramReply (s.placeOf r.rtag) r.rtag r.rport r.rq r.port row (r.reply row status payload len))

/-- Every row of a request is answered with a status (R351, R364). -/
def State.replyAll (s : State) (r : DramReq) (status : BitVec 16) : State :=
  r.rows.foldl (fun s w => s.sendReply r w.row status 0 0) s

/-- Status of a reply that reports a cause (R351). -/
def causeStatus (c : Cause) : BitVec 16 := BitVec.ofNat 16 (0x8000 + c.code)

/-! ## The node's queue (R354, R357, R364) -/

/-- The engine code of the translation node in a held access (R20). -/
def nodeEngine : Nat := 7

/-- A DREQ port has a held access at the node. -/
def Xnode.holds (x : Xnode) (port : Nat) : Bool := x.held.any fun h => h.engine == nodeEngine && h.chan == port

/-- The rows of a request with what the buffer translates filled in. -/
def State.translateRows (s : State) (t : Nat) (write : Bool) : List DramRow → State × List DramRow
  | [] => (s, [])
  | w :: ws =>
    let r := if w.entry.isSome then (s, w) else match (s.tile t).eng.xnode.hit w.va write with
      | some e => (s.modXnode t (·.fill e), { w with entry := some e, pa := if write then e.pa w.va else s.readPa t e w.va })
      | none => (s, w)
    let q := r.1.translateRows t write ws
    (q.1, r.2 :: q.2)

/-- Rows of local pages by actor, each actor once, in the order of its first row. -/
def actorGroups (rows : List DramRow) : List (Nat × List DramRow) :=
  ((rows.map fun w => actorOf w.pa).eraseDups).map fun a => (a, rows.filter fun w => actorOf w.pa == a)

/-- A translated request goes to the actors of its rows, and rows of host or peer memory to their memory (R350, R369). -/
def State.sendRequest (s : State) (r : DramReq) : State :=
  let near := r.rows.filter (·.kind == 0)
  let far := r.rows.filter (·.kind != 0)
  let fresh (a : Nat) (x : Xnode) : Xnode := { x with flushed := x.flushed.filter (· != (r.port, a)) }
  let s := (actorGroups near).foldl (fun s g => (s.post (.dramRequest g.1 { r with rows := g.2 })).modXnode r.tile (fresh g.1)) s
  far.foldl (fun s w => s.post (.backing { r with rows := [w] })) s

/-- What becomes of a request at the head of its port's queue. -/
inductive NodeStep where
  /-- it waits for a walk, or its port is held: it keeps the rows that are translated -/
  | keep (s : State) (r : DramReq)
  | sent (s : State)

/-- The refusal path (R354): one reply with status 0x802C, or, where none can be sent, a fault report. -/
def State.refuseRequest (s : State) (t : Nat) (r : DramReq) : State :=
  if Tag.kind r.rtag ≤ 1 ∧ (s.tileOf r.rtag).isSome then s.sendReply r 0 (causeStatus .dramProtocol) 0 0
  else
    let va := match r.rows with | w :: _ => w.va | [] => 0
    s.modTile t fun y => { y with place := { y.place with
      tasks := y.place.tasks ++ [faultReport va .dramProtocol nodeEngine r.port r.by_.core r.seq.toNat 0] } }

/-- One request of a tile's queue is passed on, if it can be. A FLUSH goes to the actor at which its port's arc ends. -/
def State.nodeStep (s : State) (t : Nat) (r : DramReq) : NodeStep :=
  if (s.tile t).eng.xnode.holds r.port || s.unitHeld t 7 0 then .keep s r
  else if r.refused then .sent (s.refuseRequest t r)
  else if r.op = 4 then .sent (s.post (.dramRequest (Tag.name (s.outPort t r.port).dtag) r))
  else
    let q := s.translateRows t r.writes r.rows
    let r' := { r with rows := q.2 }
    match r'.untranslated with
    | some _ => .keep q.1 r'
    | none =>
      if r.op = 2 ∧ q.2.any (·.kind != 0) then
        let va := match r.rows with | w :: _ => w.va | [] => 0
        .sent (q.1.withhold t nodeEngine r.port r.by_.core r.seq va .atomicSpace)
      else .sent (q.1.sendRequest r')

/-- The requests of a tile's node are passed on in the order of each port: `ports` lists those that have a request before. A request
that is withheld stays at the head of its port. -/
def State.pumpFrom (t : Nat) : List DramReq → List Nat → List DramReq → State → State
  | [], _, kept, s => s.modXnode t fun x => { x with dreqs := kept.reverse }
  | r :: rs, ports, kept, s =>
    if ports.contains r.port then State.pumpFrom t rs ports (r :: kept) s
    else match s.nodeStep t r with
      | .keep s' r' => State.pumpFrom t rs (r.port :: ports) (r' :: kept) s'
      | .sent s' =>
        if (s'.tile t).eng.xnode.holds r.port then State.pumpFrom t rs (r.port :: ports) (r :: kept) s'
        else State.pumpFrom t rs ports kept s'

/-- The node passes on what it can. -/
def State.pump (s : State) (t : Nat) : State := State.pumpFrom t (s.tile t).eng.xnode.dreqs [] [] s

/-- The first request of each port at a node, with the port's earlier ones passed over. -/
def headRequests : List Nat → List DramReq → List DramReq
  | _, [] => []
  | ports, r :: rs => if ports.contains r.port then headRequests ports rs else r :: headRequests (r.port :: ports) rs

/-! ## DREQ (R353, R354) -/

/-- The fields of a DREQ descriptor (R353). -/
structure DreqDesc where
  port : Nat
  op : Nat
  aw : Bool
  rport : Nat
  n : Nat
  x : Nat
  z : Bool
  stride : Nat
  rtag : Tag

/-- The descriptor that a word holds (R353). -/
def dreqDesc (w : Word) : DreqDesc :=
  { port := bits w 0 4, op := bits w 4 3, aw := w.getLsbD 7, rport := bits w 8 4, n := bits w 12 4, x := bits w 16 3, z := w.getLsbD 19
    stride := bits w 20 20, rtag := BitVec.ofNat 24 (bits w 40 24) }

/-- A descriptor breaks the table (R354). -/
def DreqDesc.malformed (d : DreqDesc) : Bool :=
  decide (4 < d.op) || ((d.op == 2 || d.op == 4) && d.n != 0) || ((d.op == 0 || d.op == 1 || d.op == 4) && d.x != 0) ||
  (d.op != 3 && d.stride != 0) || (d.z && !(d.op == 2 && (d.x == 4 || d.x == 5))) || (d.aw && d.op != 2)

/-- Bytes of each access (R353). -/
def DreqDesc.bytes (d : DreqDesc) : Nat := if d.op = 2 then (if d.aw then 4 else 8) else 8 * (d.n + 1)

/-- The access addresses (R353): `ga`, or a GATHER's rows from the indices of its data block. -/
def DreqDesc.addrs (d : DreqDesc) (ga : Word) (block : Nat) : List Word :=
  if d.op = 3 then (List.range (d.x + 1)).map fun i => ga + word (8 * d.stride * field block (4 * i) 4)
  else if d.op < 3 then [ga]
  else []

/-- The first fault among the access addresses (R354 step 4); a row that leaves D's range is SPACE_RANGE (R101). -/
def DreqDesc.addrFault (d : DreqDesc) (as : List Word) : Option (Cause × Word) :=
  as.findSome? fun a =>
    let v := a.toNat
    let size := sizeCode d.bytes
    if 2 ^ 57 ≤ v then some (.spaceRange, infoM v 4 size (d.op == 1 || d.op == 2))
    else if v % (if d.op = 2 then d.bytes else 8) ≠ 0 ∨ 128 < v % 128 + d.bytes then some (.align, infoM v 4 size (d.op == 1 || d.op == 2))
    else none

/-- DREQ's effect once its checks have passed: its slots, its sequence number and its place at the node (R350, R354). -/
def State.issueDreq (s : State) (d : DreqDesc) (vas : List Word) (block : Token) : State :=
  let t := s.cur.tile
  let o := s.outPort t d.port
  let by_ : Issuer := ⟨s.cur.core, s.cur.ctx⟩
  let bad := d.malformed || decide (1 < Tag.kind d.rtag) || (s.tileOf d.rtag).isNone
  let silent := bad && (decide (1 < Tag.kind d.rtag) || (s.tileOf d.rtag).isNone)
  let n := if silent then 0 else if bad then 1 else replyCount d.op d.x
  let owed := (List.range n).map fun i => (⟨o.seq, i, d.rtag, d.rport, by_⟩ : Owed)
  let x := s.myTile.eng.xnode
  let r : DramReq :=
    { op := d.op, aw := d.aw, amo := d.x, z := d.z, bytes := d.bytes, key := BitVec.ofNat 10 (s.nodeKey t), chase := x.chase, rq := s.tileTag t, tile := t, port := d.port
      seq := o.seq, rtag := d.rtag, rport := d.rport, by_ := by_, refused := bad
      rows := (List.range vas.length).map fun i => ⟨i, (vas.getD i 0).toNat, none, 0⟩
      value := block.setWidth 64, cmp := (block >>> 64).setWidth 64, data := block }
  let s := s.modOut t d.port fun o => { o with seq := o.seq + (if d.op = 1 then 2 else 1), slots := o.slots - n, owed := o.owed ++ owed }
  (s.modXnode t fun x => { x with dreqs := x.dreqs ++ [r] }).pump t

/-- DREQ (R354). -/
def execDreq (o : Opnd) (s : State) : Host.Outcome State Fault Refusal :=
  onceNone o (.g [an o, bn o, dn o] []) (fun s =>
    let t := s.cur.tile
    let ga := s.rg (an o)
    let gd := (s.rg (dn o)).toNat
    let d := dreqDesc (s.rg (bn o))
    let p := s.outPort t d.port
    if !p.arc || Tag.kind p.dtag != 3 then (s, .trap .portUnbound (unboundInfo d.port true))
    else if d.op ≠ 4 ∧ 2 ^ 57 ≤ ga.toNat then (s, .trap .spaceRange (infoM ga.toNat 4 (sizeCode d.bytes) (d.op == 1 || d.op == 2)))
    else
      let uses := d.op == 1 || d.op == 2 || d.op == 3
      match if uses then s.blockFault gd 128 false else none with
      | some (c, i) => (s, .trap c i)
      | none =>
        match if uses then s.readBlock gd else .ok 0 with
        | .error a => (s, a)
        | .ok block =>
          let vas := d.addrs ga block.toNat
          match d.addrFault vas with
          | some (c, i) => (s, .trap c i)
          | none =>
            if s.owesAt 2 then (s, .wait (.fence 2 2))
            else if p.slots < replyCount d.op d.x ∨ p.seamed then (s, .wait (.dramSlots d.port (replyCount d.op d.x)))
            else (s.issueDreq d vas block, .done)) s

/-! ## Walks (R357, R360, R364) -/

/-- The physical address of the table read at which a walk ends or stops, from a table of a level. -/
def State.walkStop (s : State) (va : Nat) : Nat → Nat → Nat
  | table, level =>
    let a := table + 8 * tableIndex level va
    match s.tableRead a 8 with
    | .error _ => a
    | .ok n =>
      let e := word n
      if !entryValid e level || e.getLsbD 1 then a
      else match level with
        | 0 => a
        | l + 1 => s.walkStop va (entryAddr e) l

/-- The level at which a walk ends or stops, from a table of a level. -/
def State.stopLevel (s : State) (va : Nat) : Nat → Nat → Nat
  | table, level =>
    match s.tableRead (table + 8 * tableIndex level va) 8 with
    | .error _ => level
    | .ok n =>
      let e := word n
      if !entryValid e level || e.getLsbD 1 then level
      else match level with
        | 0 => level
        | l + 1 => s.stopLevel va (entryAddr e) l

/-- The page holding an address in the tables of a tile's chase as they stand (R362): its start and its bytes. Where no leaf maps the
address, it is all that the entry at which the walk stops covers. -/
def State.pageHolding (s : State) (t va : Nat) : Nat × Nat :=
  let level := match s.tableRead (s.tile t).eng.xnode.root 8 with
    | .ok n => s.stopLevel va (entryAddr (word n)) 3
    | .error _ => 3
  let size := if level = 3 then 2 ^ 45 else pageBytes level
  (va / size * size, size)

/-- The actor that holds the table entry at which a walk of a tile's node stops. -/
def State.walkActor (s : State) (t va : Nat) : Nat :=
  let x := (s.tile t).eng.xnode
  match s.rootGen t, s.tableRead x.root 8 with
  | .ok _, .ok n => actorOf (s.walkStop va (entryAddr (word n)) 3)
  | _, _ => actorOf x.root

/-- The contexts of a tile that wait for the translation of a page. -/
def State.xlateWaiters (s : State) (t va : Nat) (write : Bool) : List (Cur × Nat × Nat) :=
  (s.ctxList t).filterMap fun u => match (s.ctx u).waits with
    | some (.xlate v w a n) => if v = va ∧ w = write then some (u, a, n) else none
    | _ => none

/-- The head requests of a tile's node that wait for the translation of a page. -/
def State.walkHeads (s : State) (t va : Nat) (write : Bool) : List DramReq :=
  let x := (s.tile t).eng.xnode
  (headRequests [] x.dreqs).filter fun r => !x.holds r.port && !r.refused && r.writes == write &&
    (match r.untranslated with | some w => w.va == va | none => false)

/-- The node without the first request of a port. -/
def dropHead (port : Nat) : List DramReq → List DramReq
  | [] => []
  | r :: rs => if r.port = port then rs else r :: dropHead port rs

/-- A DREQ whose translation failed (R364): withheld, or answered with the cause where the cause does not withhold. -/
def State.failRequest (s : State) (t va : Nat) (c : Cause) (r : DramReq) : State :=
  if c.withholds then s.withhold t nodeEngine r.port r.by_.core r.seq va c
  else ((s.modXnode t fun x => { x with dreqs := dropHead r.port x.dreqs }).replyAll r (causeStatus c)).pump t

/-- TRANSLATION_WALK (R360): for the contexts and the requests that wait for a page, the entry is filled, or the fault takes the path
of each access (R364). -/
def execTranslationWalk (t va : Nat) (write : Bool) (s : State) : Host.Outcome State Fault Refusal :=
  let us := s.xlateWaiters t va write
  let rs := s.walkHeads t va write
  if (us.isEmpty && rs.isEmpty) || s.unitHeld t 7 0 then .next s
  else match s.walk t va write with
    | .ok e => .next ((s.modXnode t (·.fill e)).pump t)
    | .error c =>
      let info (a n : Nat) : Word := if c == .keySlot then keySlotInfo 0 (s.walkActor t va) else infoM a 4 n write
      let s := us.foldl (fun s u => s.raise u.1 c (info u.2.1 u.2.2) (lenAt (s.tile t).x (xAddr (s.ctx u.1).pc))) s
      .next (rs.foldl (fun s r => s.failRequest t va c r) s)

/-! ## XLATE and shootdowns (R361 to R363) -/

/-- A node's replay generation raised to another (R361). -/
def Xnode.raise (x : Xnode) (g : BitVec 32) : Xnode := if below x.rgen g then { x with rgen := g } else x

/-- An entry's page overlaps `n` bytes at an address (R362). -/
def Xentry.within (e : Xentry) (va n : Nat) : Bool := overlaps (e.page * pageBytes e.level) (pageBytes e.level) va n

/-- A node drops its entries and pins that overlap the page of `n` bytes at an address (R362): a request not yet passed on translates
again. -/
def Xnode.drop (x : Xnode) (va n : Nat) : Xnode :=
  let fresh (w : DramRow) : DramRow := if w.entry.any (·.within va n) then { w with entry := none, pa := 0 } else w
  { x with
    buf := x.buf.filter fun e => !e.within va n
    pins := x.pins.filter fun p => !p.2.within va n
    dreqs := x.dreqs.map fun r => { r with rows := r.rows.map fresh } }

/-- The tiles whose nodes belong to a chase. -/
def State.nodesOf (s : State) (chase : Nat) : List Nat :=
  (s.tiles.filter fun p => p.2.place.live && p.2.place.chase.isSome && p.2.eng.xnode.chase == chase).map Prod.fst

/-- The result of a translation (R363). -/
def xlateResult (super : Bool) (va : Nat) : Except Cause Xentry → Word
  | .ok e =>
    let k := e.entry
    word ((if super then e.pa va % 2 ^ 44 else 0) + 2 ^ 44 * e.level + 2 ^ 46 * (k.getLsbD 2).toNat + 2 ^ 47 * (k.getLsbD 3).toNat
      + 2 ^ 48 * entryKind k)
  | .error c => word (2 ^ 63 + 2 ^ 50 * c.code)

/-- XLATE without sd, after its drop: by the buffer or by a walk, whose entry the buffer takes with fill (R363). -/
def State.xlate (s : State) (t va : Nat) (write fill : Bool) : State × Except Cause Xentry :=
  match (s.tile t).eng.xnode.hit va write with
  | some e => (s.modXnode t (·.fill e), .ok e)
  | none => match s.walk t va write with
    | .ok e => (if fill then s.modXnode t (·.fill e) else s, .ok e)
    | .error c => (s, .error c)

/-- The shootdown of a context, with the nodes that have not acknowledged. -/
def Xnode.shootOf (x : Xnode) (u : Cur) : Option (List Nat) :=
  (x.shooting.find? fun e => e.1 == u.core && e.2.1 == u.ctx).map (·.2.2)

/-- The node without the shootdown of a context. -/
def Xnode.endShoot (x : Xnode) (u : Cur) : Xnode :=
  { x with shooting := x.shooting.filter fun e => !(e.1 == u.core && e.2.1 == u.ctx) }

/-- XLATE (R363). -/
def execXlate (o : Opnd) (s : State) : Host.Outcome State Fault Refusal :=
  onceLong false o (.g [an o, bn o] [dn o]) (.g [] [dn o]) (fun s =>
    let u := s.cur
    let t := u.tile
    let a := s.rg (an o)
    let b := s.rg (bn o)
    let gen : BitVec 32 := (b >>> 32).setWidth 32
    let sd := b.getLsbD 2
    if bits b 4 28 ≠ 0 then (s, .trap .reservedNonzero (Instr.xlate o).info)
    else if (sd || gen != 0) && !s.supervisor then (s, .trap .privilege (Instr.xlate o).info)
    else match if sd then s.myTile.eng.xnode.shootOf u else none with
      | some left =>
        if left.isEmpty then computeLong o (fun _ => 0) (s.modXnode t (·.endShoot u)) else (s, .wait .shootdown)
      | none =>
        let s := if gen = 0 then s else s.modXnode t (·.raise gen)
        let page := s.pageHolding t a.toNat
        if 2 ^ 57 ≤ a.toNat then computeLong o (fun _ => xlateResult true 0 (.error .spaceRange)) s
        else if sd then
          let ns := s.nodesOf s.myTile.eng.xnode.chase
          let s := s.modXnode t fun x => { x with shooting := x.shooting ++ [(u.core, u.ctx, ns)] }
          (ns.foldl (fun s n => s.post (.shoot t u.core u.ctx n page.1 page.2)) s, .wait .shootdown)
        else
          let s := if b.getLsbD 3 then s.modXnode t (·.drop page.1 page.2) else s
          let r := s.xlate t a.toNat (b.getLsbD 0) (b.getLsbD 1)
          let super := s.supervisor
          computeLong o (fun _ => xlateResult super a.toNat r.2) (r.1.pump t)) s

/-- XLATE_SHOOTDOWN (R362): every node of the chase drops what it holds of the page. -/
def execXlateShootdown (t c x : Nat) (s : State) : Host.Outcome State Fault Refusal :=
  let arrive (m : Msg) : Msg := match m with
    | .shoot t' c' x' n va k => if t' = t ∧ c' = c ∧ x' = x then .shot t c x n va k else m
    | m => m
  let nodes := s.net.filterMap fun m => match m with
    | .shoot t' c' x' n va k => if t' = t ∧ c' = c ∧ x' = x then some (n, va, k) else none
    | _ => none
  let s := nodes.foldl (fun s p => s.modXnode p.1 (·.drop p.2.1 p.2.2)) s
  .next { s with net := s.net.map arrive }

/-- An access that a node translated for the page of `n` bytes at an address is still to be performed (R362). -/
def State.flying (s : State) (node va n : Nat) : Bool :=
  s.net.any fun m => match m with
    | .dramRequest _ r => r.tile == node && r.rows.any fun w => w.entry.any (·.within va n)
    | .backing r => r.tile == node && r.rows.any fun w => w.entry.any (·.within va n)
    | _ => false

/-- SHOOTDOWN_ACK (R362): a node acknowledges once its accesses through the page have been performed. -/
def execShootdownAck (n : Nat) (s : State) : Host.Outcome State Fault Refusal :=
  match s.take n with
  | some (.shot t c x node va k, s') =>
    if s.flying node va k then .next s
    else .next (s'.modXnode t fun k => { k with
      shooting := k.shooting.map fun e => if e.1 = c ∧ e.2.1 = x then (e.1, e.2.1, e.2.2.filter (· != node)) else e })
  | _ => .next s

/-! ## The actors' steps (R348, R349, R352) -/

/-- The places in flight of the requests to an actor. -/
def actorRequests (a : Nat) : Nat → List Msg → List (Nat × DramReq)
  | _, [] => []
  | i, .dramRequest b r :: ms => if b = a then (i, r) :: actorRequests a (i + 1) ms else actorRequests a (i + 1) ms
  | i, _ :: ms => actorRequests a (i + 1) ms

/-- Two requests come from one requester: one output port of one tag (R352). -/
def DramReq.sameRequester (r q : DramReq) : Bool := r.rq == q.rq && r.port == q.port && r.tile == q.tile

/-- The `k`-th request in flight to an actor, if the actor may perform it: no earlier one of its requester waits there (R352). -/
def State.request (s : State) (a k : Nat) (op : Nat) : Option (Nat × DramReq) :=
  let rs := actorRequests a 0 s.net
  match rs[k]? with
  | none => none
  | some (i, r) =>
    if r.op = op ∧ !(s.actor a).lost ∧ !((rs.take k).any fun q => q.2.sameRequester r) then some (i, r) else none

/-- The state without a message in flight. -/
def State.unpost (s : State) (i : Nat) : State := { s with net := s.net.eraseIdx i }

/-- The writer that a DREQ is at the directories (R365). -/
def DramReq.who (r : DramReq) : Nat := 64 + r.port

/-- One row of a request performed at its actor, and its reply (R348, R349, R351, R352). -/
def State.performRow (s : State) (r : DramReq) (w : DramRow) : State :=
  match s.keyPair w.pa r.key.toNat with
  | none => s.sendReply r w.row (causeStatus .keySlot) 0 0
  | some key =>
    if r.op = 1 then
      let s := s.dramWrite key w.pa r.bytes (r.data.toNat % 256 ^ r.bytes)
      let s := match w.entry with | some e => s.invalidateDups r.tile r.by_.core r.who w.va e | none => s
      s.sendReply r w.row 0 0 0
    else if s.dram.poisoned w.pa r.bytes then s.sendReply r w.row (causeStatus .dramPoison) 0 0
    else
      let old := s.dram.read key w.pa r.bytes
      if r.op = 2 then
        let x := r.value.toNat % 256 ^ r.bytes
        let y := r.cmp.toNat % 256 ^ r.bytes
        let less (x y : Nat) : Bool := if r.z then decide (x < y) else decide (signedOf r.bytes x < signedOf r.bytes y)
        let new := (match r.amo with
          | 0 => old + x | 1 => old &&& x | 2 => old ||| x | 3 => old ^^^ x
          | 4 => if less x old then x else old
          | 5 => if less old x then x else old
          | 6 => x
          | _ => if old = y then x else old) % 256 ^ r.bytes
        let s := if r.amo = 7 ∧ new = old then s else
          let s := s.dramWrite key w.pa r.bytes new
          match w.entry with | some e => s.invalidateDups r.tile r.by_.core r.who w.va e | none => s
        s.sendReply r w.row 0 old 1
      else s.sendReply r w.row 0 old (r.bytes / 8)

/-- A row that a duplicate sends on to the home, since it has collapsed the page (R365). -/
def State.sentOn (s : State) (a : Nat) (r : DramReq) (w : DramRow) : Option DramRow :=
  match w.entry with
  | some e =>
    if !r.writes && a != actorOf (entryAddr e.entry) && (s.actor a).hasCollapsed (entryAddr e.entry) e.gen then some { w with pa := e.pa w.va }
    else none
  | none => none

/-- A request performed at an actor, its rows in order; those that a duplicate sends on take its place in flight, so that a FLUSH
behind it waits for them too (R352, R365). -/
def State.perform (s : State) (a k op : Nat) : State :=
  match s.request a k op with
  | none => s
  | some (i, r) =>
    let on := (r.rows.filterMap (s.sentOn a r)).map fun w => Msg.dramRequest (actorOf w.pa) { r with rows := [w] }
    let here := r.rows.filter fun w => (s.sentOn a r w).isNone
    here.foldl (fun s w => s.performRow r w) { s with net := s.net.take i ++ on ++ s.net.drop (i + 1) }

/-- DRAM_READ (R352). -/
def execDramRead (a k : Nat) (s : State) : Host.Outcome State Fault Refusal := .next (s.perform a k 0)

/-- DRAM_WRITE (R352). -/
def execDramWrite (a k : Nat) (s : State) : Host.Outcome State Fault Refusal := .next (s.perform a k 1)

/-- DRAM_AMO (R352). -/
def execDramAmo (a k : Nat) (s : State) : Host.Outcome State Fault Refusal := .next (s.perform a k 2)

/-- DRAM_GATHER (R352): the rows of the request that lie in this actor. -/
def execDramGather (a k : Nat) (s : State) : Host.Outcome State Fault Refusal := .next (s.perform a k 3)

/-- A request of a requester before another is still to be performed at some actor, or at host or peer memory (R352). -/
def State.earlierOpen (s : State) (i : Nat) (r : DramReq) : Bool :=
  (s.net.take i).any fun m => match m with
    | .dramRequest a q => q.sameRequester r && !(s.tile q.tile).eng.xnode.flushed.contains (q.port, a)
    | .backing q => q.sameRequester r
    | _ => false

/-- DRAM_FLUSH (R352): it is answered once every earlier request of its requester has been performed. -/
def execDramFlush (a k : Nat) (s : State) : Host.Outcome State Fault Refusal :=
  match s.request a k 4 with
  | none => .next s
  | some (i, r) => if s.earlierOpen i r then .next s else .next ((s.unpost i).sendReply r 0 0 0 0)

/-- The reply that a requesting port is owed next for a reply port (R355). -/
def OutPort.nextOwed (o : OutPort) (rtag : Tag) (rport : Nat) : Option Owed := o.owed.find? fun w => w.rtag == rtag && w.rport == rport

/-- DRAM_REPLY (R355): a reply is placed in its port's queue once every earlier reply of the same requesting port has been, and the
acknowledgements that its writes owe are in (R128). -/
def execDramReply (n : Nat) (s : State) : Host.Outcome State Fault Refusal :=
  match s.take n with
  | some (.dramReply t dst dport rq port row k, s') =>
    let from_ := s.placeOf rq
    match (s.outPort from_ port).nextOwed dst dport with
    | none => .next s
    | some w =>
      if w.seq ≠ k.seq ∨ w.row ≠ row ∨ s.owedAcks from_ w.by_.core (64 + port) ≠ 0 then .next s
      else
        let done (s : State) : State := s.modOut from_ port fun o => { o with owed := o.owed.filter (· != w) }
        if s.tileOf dst = some t then .next ((done s').modIn t dport (·.push k))
        else if s.isStub t dst then .next s
        else .next ((done s').discardAt t dst)
  | _ => .next s

/-! ## Host and peer memory (R369) -/

/-- Tokens of host data decrypted under a slot's pair, from the token number `tok`: the bytes in order. -/
def decryptTokens (key : BitVec 512) : Nat → Nat → List Byte → List Byte
  | 0, _, _ => []
  | k + 1, tok, data =>
    bytesOfNat 128 (Config.decrypt key tok (BitVec.ofNat 1024 (natOfBytes (data.take 128)))).toNat ++ decryptTokens key k (tok + 1) (data.drop 128)

/-- The bytes that a request reads from what its memory returned: kind 1 decrypted by the module, kind 2 by the peer (R369). -/
def State.backingBytes (s : State) (r : DramReq) (data : List Byte) : Nat :=
  match r.rows with
  | [] => 0
  | w :: _ =>
    let toks := (w.pa % 128 + r.bytes + 127) / 128
    let plain := if w.kind = 1 then decryptTokens (s.slotPair r.key.toNat) toks (w.pa / 128) data else data
    natOfBytes ((plain.drop (w.pa % 128)).take r.bytes)

/-- The bytes that a load or an engine operation awaits from host or peer memory come (R140, R369). -/
def State.bringOwed (s : State) (t : Nat) (id : BitVec 32) (v : Nat) : State :=
  if (s.tile t).eng.xnode.remote.any (·.ident == id) then
    s.modXnode t fun x => { x with remote := x.remote.map fun r => if r.ident = id then { r with value := some v } else r }
  else
  let fill (f : Flight) : Flight := match f.value with
    | .owed i n sx => if BitVec.ofNat 32 i = id then { f with value := .word (if sx then wordI (signedOf n v) else word v) } else f
    | _ => f
  (s.ctxList t).foldl (fun s u => if (s.ctx u).flights.isEmpty then s else s.modCtx u fun k => { k with flights := k.flights.map fill }) s

/-- Where a token for a module goes (R472): a link, or none where the number is out of range or the module unreachable. -/
def State.moduleRoute (s : State) (m : Nat) : Option Nat :=
  let r := if m / 512 = s.plat.module / 512 then s.plat.members.get 0xFF (m % 512) else s.plat.groups.get 0xFF (m / 512)
  if m < 400000 ∧ r < 16 then some r else none

/-- The peer module of a request's page (R359, R369). -/
def DramReq.peer (r : DramReq) : Option Nat :=
  match r.rows with
  | w :: _ => if w.kind = 2 then w.entry.map fun e => bits e.entry 44 19 else none
  | [] => none

/-- An Ethernet port is linked, by which the host's memory is reached (R2, R464). -/
def State.hostLinked (s : State) : Bool := (List.range 4).any fun p => (s.plat.eth.get EthPort.reset p).linkUp && !s.moduleHeld 0xD p

/-- HOST_BACKING_REPLY (R369): a request to host or peer memory is performed there, over a link that is up, in the order of its requester,
and its answer comes. -/
def execHostBackingReply (n : Nat) (data : List Byte) (s : State) : Host.Outcome State Fault Refusal :=
  match s.take n with
  | some (.backing r, s') =>
    let route := r.peer.map s.moduleRoute
    if s.earlierOpen n r then .next s
    else if route = some none then
      .next { s' with plat := { s'.plat with linkFaults := s'.plat.linkFaults ++ [word (r.peer.getD 0)] } }
    else if (match route with | some (some l) => !s.linkServes l | _ => !s.hostLinked) then .next s
    else if r.port < 16 then
      .next (if r.op = 1 then s'.replyAll r 0
        else r.rows.foldl (fun s' w => s'.sendReply r w.row 0 (s.backingBytes r data) (r.bytes / 8)) s')
    else if r.op = 0 then .next (s'.bringOwed r.tile r.seq (s.backingBytes r data))
    else .next s'
  | _ => .next s

/-! ## Wear and duplicated pages (R348, R365, R366) -/

/-- CHANNEL_SPARE_SWAP (R348): the contents move to the spare channel, SPARE_SWAP is raised with kind 2 at core 0 of the actor's
attachment tile, and the swap is logged (R409; assumption 28). -/
def execChannelSpareSwap (a h : Nat) (s : State) : Host.Outcome State Fault Refusal :=
  if (s.actor a).spareUsed || decide (8 ≤ h) then .next s
  else
    let at_ := attachment a
    let rec_ := bytesOfNat 8 s.now ++ bytesOfNat 8 2 ++ bytesOfNat 8 a ++ bytesOfNat 8 (tileName (tileAt at_.1 at_.2))
    let s := (s.modActor a fun d => { d with spareUsed := true, errors := d.errors.erase h }).notify (tileAt at_.1 at_.2) 0 .spareSwap
      (word (2 + 65536 * a))
    .next { s with plat := { s.plat with spareLog := s.plat.spareLog ++ [rec_] } }

/-- The home's directory entry of a page. -/
def DramActor.entry (d : DramActor) (page : Nat) : Option DirEntry := d.dir.find? (·.page == page)

/-- The actor with a directory entry changed. -/
def DramActor.modEntry (d : DramActor) (page : Nat) (f : DirEntry → DirEntry) : DramActor :=
  { d with dir := d.dir.map fun e => if e.page = page then f e else e }

/-- DUP_INVALIDATION (R365): the duplicate collapses the page and acknowledges; a lost actor never does. -/
def execDupInvalidation (n : Nat) (s : State) : Host.Outcome State Fault Refusal :=
  match s.take n with
  | some (.invalidate home dup page t c who, s') =>
    if (s.actor dup).lost then .next s
    else
      let k : Collapse := match (s.actor home).entry page with | some e => ⟨e.size, e.gen, []⟩ | none => ⟨2 ^ 19, 0, []⟩
      .next ((s'.modActor dup fun d => { d with collapsed := d.collapsed.put page k }).post (.invalidated home dup page t c who))
  | _ => .next s

/-- The list without its first element that meets a condition. -/
def eraseFirst {α : Type} (p : α → Bool) : List α → List α
  | [] => []
  | x :: xs => if p x then xs else x :: eraseFirst p xs

/-- An acknowledgement counts as received (R365, R366): the duplicate leaves the home's directory entry, and the writer's count falls
(R128) where it was still owed. -/
def State.countAck (s : State) (home dup page t c who : Nat) : State :=
  let mine (o : DupAck) : Bool := o.dup == dup && o.tile == t && o.core == c && o.who == who
  let owed := ((s.actor home).entry page).any fun e => e.owing.any mine
  let s := s.modActor home fun d => d.modEntry page fun e =>
    { e with dups := e.dups.filter (· != dup), owing := eraseFirst mine e.owing }
  if owed && decide (who < 16) then s.modCtx ⟨t, c, who⟩ fun k => { k with acks := k.acks - 1 } else s

/-- DUP_ACK (R365): the acknowledgement reaches the home. -/
def execDupAck (n : Nat) (s : State) : Host.Outcome State Fault Refusal :=
  match s.take n with
  | some (.invalidated home dup page t c who, s') => .next (s'.countAck home dup page t c who)
  | _ => .next s

/-- The invalidations that a home has sent and not had acknowledged. -/
def DramActor.owing (d : DramActor) : List DupAck := d.dir.flatMap (·.owing)

/-- The micro-kernel has removed a duplicate of an awaited invalidation: the leaf of the page, as the tables now stand, maps a page
without it (R366; assumption 21). -/
def State.dupRemoved (s : State) (o : DupAck) : Bool :=
  match s.walk o.tile o.va false with
  | .ok e => !(dupsOf e.entry).contains o.dup
  | .error _ => false

/-- DUP_COLLAPSE (R366): the `k`-th invalidation that a home awaits is more than 100 µs old, and the writer's core is told. Of one
that has been told, the acknowledgement counts as received once the micro-kernel has removed the duplicate. -/
def execDupCollapse (a k : Nat) (s : State) : Host.Outcome State Fault Refusal :=
  match (s.actor a).owing[k]? with
  | some o =>
    match o.sent with
    | some at_ =>
      if at_ + 100000 < s.now then
        let told (e : DirEntry) : DirEntry := { e with owing := e.owing.map fun q => if q = o then { q with sent := none } else q }
        let s' := (s.modActor a fun d => { d with dir := d.dir.map told }).notify o.tile o.core .dupCollapse (word o.va)
        .next (if (s.actor o.dup).lost then s'.strikeTile o.tile else s')
      else .next s
    | none =>
      if s.dupRemoved o then
        match (s.actor a).dir.find? (·.owing.contains o) with
        | some e => .next (s.countAck a o.dup e.page o.tile o.core o.who)
        | none => .next s
      else .next s
  | none => .next s

/-- DRAM_ACTOR_LOST (R366): the actor performs and acknowledges nothing more, and a chase that has been told of a duplicate of its own
collapsed there is struck. -/
def execDramActorLost (a : Nat) (s : State) : Host.Outcome State Fault Refusal :=
  if 96 ≤ a then .next s
  else
    let told := (s.actors.flatMap fun p => p.2.owing).filter fun o => o.dup == a && o.sent.isNone
    .next (told.foldl (fun s o => s.strikeTile o.tile) (s.modActor a fun d => { d with lost := true }))

/-- TOKEN_POISONED (R348): an error of one symbol is corrected on read; another leaves the token poisoned. -/
def execTokenPoisoned (token : Nat) (corrected : Bool) (s : State) : Host.Outcome State Fault Refusal :=
  let a := actorOf (128 * token)
  let h := Config.channelOf token % 8
  if 96 ≤ a then .next s
  else if corrected then .next (s.modActor a fun d => { d with errors := d.errors.set 0 h (d.errors.get 0 h + 1) })
  else .next { s with dram := { s.dram with poison := if s.dram.poison.contains token then s.dram.poison else token :: s.dram.poison } }

/-! ## Low marks (R367) -/

/-- A window is rising: its steps do not fall and each clears the dimensions below it (R367). -/
def risingSteps : Int → List Nat → List Int → Bool
  | sum, l :: ls, d :: ds => decide (0 ≤ d) && decide (sum ≤ d) && risingSteps (sum + d * ((l : Int) - 1)) ls ds
  | _, _, _ => true

/-- The lowest address of a pattern's range, for a window that may come back to it. -/
def lowestOf (base : Int) (lens : List Nat) (steps : List Int) : Nat := (base + (spanOf lens steps).1).toNat

/-- The low mark of a stream binding in D (R367). -/
def Binding.lowMark (b : Binding) : Option Nat :=
  let p := b.pat
  if p.space != .d then none
  else if p.seg then some (if 0 ≤ p.steps.getD 0 0 then p.base else 0)
  else if risingSteps 0 p.dims p.steps then some (p.addr (if b.write then b.next else b.count)).toNat
  else some (lowestOf p.base p.dims p.steps)

/-- The low mark of a side of a copy in D at element `n` (R367). -/
def Side.lowMark (d : Side) (lens : List Nat) (n : Nat) : Option Nat :=
  if d.space != .d then none
  else if !d.packed && risingSteps 0 lens d.steps then some (d.at_ lens n).toNat
  else some (lowestOf d.addr lens d.steps)

/-- The lowest of some marks. -/
def minMark (ms : List (Option Nat)) : Option Nat :=
  ms.foldl (fun m x => match m, x with | some a, some b => some (min a b) | some a, none => some a | none, x => x) none

/-- A mark with what has been written for the same window (R371): it never falls (R367). -/
def Xnode.heldMark (x : Xnode) (h window m : Nat) : Nat :=
  match x.marks.find h with
  | some k => if k.window = window then max k.mark m else m
  | none => m

/-- The low marks of a tile's open windows by holder, channels, then the stream units of each core, with the oldest transfer or the
binding that each stands for (R367). A mark computed anew for each window cannot fall while its window is open. -/
def State.windows (s : State) (t : Nat) : Sparse LowMark :=
  let y := s.tile t
  let mark (h window : Nat) (m : Nat) : Nat × LowMark := (h, ⟨window, y.eng.xnode.heldMark h window m⟩)
  let chans := y.eng.channels.filterMap fun p =>
    (minMark (p.2.queue.mapIdx fun i tr =>
      let q := planOf tr.snap
      let n := if i = 0 then p.2.pos else 0
      if q.total ≤ n then none else minMark [q.src.lowMark q.lens n, q.dst.lowMark q.lens n])).map fun m =>
        mark p.1 ((p.2.queue.head?.map (·.ident.toNat)).getD 0) m
  let streams := y.cores.flatMap fun c => c.2.streams.filterMap fun u =>
    match u.2.bind with | some b => b.lowMark.map fun m => mark (streamHolder c.1 u.1) b.ident.toNat m | none => none
  chans ++ streams

/-- The minimum of a tile's marks (R367). -/
def State.lowMin (s : State) (t : Nat) : Option Nat := minMark ((s.windows t).map fun p => some p.2.mark)

/-- One minimum is above another: no open window at all is above any (R367). -/
def risesTo : Option Nat → Option Nat → Bool
  | some a, some b => decide (a < b)
  | some _, none => true
  | none, _ => false

/-- LOW_MARK (R367): the minimum of the tile's marks is sent when it has risen, at most once per µs. -/
def execLowMark (t : Nat) (s : State) : Host.Outcome State Fault Refusal :=
  let x := (s.tile t).eng.xnode
  let low := s.lowMin t
  let risen := x.risen || risesTo x.seenMin low
  let now := s.rtime t
  if risen && decide (x.sentAt + 1000 ≤ now) then
    .next (s.modXnode t fun x => { x with seenMin := low, risen := false, sentMin := low, sentAt := now })
  else .next (s.modXnode t fun x => { x with seenMin := low, risen := risen })

end Sys2Proof.Machine
end

