-- ==== Sys2Proof/Machine/End.lean ====
section
/-! DEFINITION. How a handler ends: ENDH, WDONE and ERET (R152, R189, R246), and what freeing a context leaves behind. -/

namespace Sys2Proof.Machine

/-! ## Freeing a context -/

/-- The number that stands for no context in an issuer: its handler has ended (R309, R114). -/
def nobody : Nat := 16

/-- The number that stands for a saved context in an issuer, until a CTXLOAD takes its area (R402, R403; assumption 50). -/
def savedNumber (x : Nat) : Nat := 32 + x

/-- An issuer that another has become. -/
def Issuer.become (i a b : Issuer) : Issuer := if i = a then b else i

/-- The engine operations, walks, owed replies, matrix commands and bindings of an issuer of a tile become another's; what belongs to
a core stays there (R152, R402, R403). -/
def State.reissue (s : State) (t : Nat) (a b : Issuer) : State :=
  let chan (k : Channel) : Channel := { k with queue := k.queue.map fun r => { r with by_ := r.by_.become a b } }
  let walk (w : OpenWalk) : OpenWalk := { w with by_ := w.by_.become a b }
  let owed (w : Owed) : Owed := { w with by_ := w.by_.become a b }
  let cmd (m : MCmd) : MCmd :=
    if m.ctx = a.ctx ∧ (m.live ∨ nobody < a.ctx) then { m with ctx := if b.ctx = nobody then m.ctx else b.ctx, live := decide (b.ctx < nobody) }
    else m
  let unit (v : StreamUnit) : StreamUnit :=
    { v with bind := v.bind.map fun k => if k.owner = a.ctx then { k with owner := b.ctx } else k
             cancelled := v.cancelled.filterMap fun x => if x ≠ a.ctx then some x else if b.ctx = nobody then none else some b.ctx }
  let s := s.modEng t fun e => { e with channels := e.channels.map fun p => (p.1, chan p.2) }
  let s := s.modPort t fun e => { e with outputs := e.outputs.map fun p => (p.1, { p.2 with owed := p.2.owed.map owed }) }
  let s := s.modWalker t a.core fun w => { w with open_ := w.open_.map walk }
  if a.core = b.core then
    s.modCore t a.core fun k => { k with
      mq := { k.mq with cmds := k.mq.cmds.map cmd }
      streams := k.streams.map fun p => (p.1, unit p.2) }
  else s

/-- What a context that goes leaves: its claims, its shootdown and its duty to reply are no more, and its operations become another
issuer's. -/
def State.leaveTo (s : State) (u : Cur) (number : Nat) : State :=
  let s := s.modEng u.tile fun e => { e with xnode := e.xnode.endShoot u }
  let s := s.modPort u.tile fun e => { e with replies := e.replies.filter fun r => !(r.core == u.core && r.ctx == u.ctx) }
  let s := s.modWalker u.tile u.core fun w => { w with answer := w.answer.erase u.ctx, claims := w.claims.filter (·.1 != u.ctx) }
  s.reissue u.tile ⟨u.core, u.ctx⟩ ⟨u.core, number⟩

/-- The operations of a context that goes are nobody's: they complete on their own (R152). -/
def State.orphan (s : State) (u : Cur) : State := s.leaveTo u nobody

/-- The context as it stands free (R134): its loop stack and its results are discarded. -/
def Ctx.freed (k : Ctx) : Ctx :=
  { k with status := .free, handler := .none, loops := [], flights := [], words := 0, granted := false, stalled := false, behind := false, ahead := false, pend := none
           kept := none, pcFrom := none, sender := SenderState.reset }

/-- The context becomes free (R134, R152): its mail sender withdraws (R340), its reply is sent empty (R342), its gang is no more. -/
def State.freeCtx (s : State) (u : Cur) : State :=
  let s := (s.withdraw u none).reply u 0x11 0 0
  let s := match (s.tile u.tile).gangOf u.core u.ctx with | some g => s.modTile u.tile (·.dropGang g) | none => s
  ((s.orphan u).endGroup u).modCtx u Ctx.freed

/-! ## ENDH (R152) -/

/-- The stream units that a context holds. -/
def State.unitsOf (s : State) (u : Cur) : List (Nat × Binding) :=
  (s.core u.tile u.core).streams.filterMap fun p => match p.2.bind with
    | some b => if b.owner = u.ctx then some (p.1, b) else none
    | none => none

/-- SUNBIND of every unit that may end (R152 step 2). -/
def State.unbindAll (s : State) (u : Cur) : State :=
  (s.unitsOf u).foldl (fun s p => if s.canUnbind u.tile u.core p.1 p.2 then s.unbind u.tile u.core p.1 p.2 else s) s

/-- The end of a handler by its kind (R152 step 3, R189, R236, R246, R324): the state, or what keeps it from ending. -/
def State.endKind (s : State) (u : Cur) : State × Option Act :=
  let t := u.tile
  match (s.ctx u).handler with
  | .none | .mail _ _ _ _ _ _ => (s, none)
  | .item _ _ => match s.retireHeld u with
    | some w => (s, some (.wait w))
    | none => (s.retire u false, none)
  | .firing _ =>
    match s.firingOf u with
    | none => (s, none)
    | some f =>
      if (s.ctx u).trap.ts.intrap then (s.endFiring t f, none)
      else
        let e := (s.tile t).port
        match e.closeTrap f with
        | some (p, l) => (s, some (.trap .portProtocol (protocolInfo p l)))
        | none =>
          match if (e.forwards f).isEmpty then none else e.autos.find? fun p => !s.hasSlots t [p] with
          | some p => (s, some (.wait (.send p)))
          | none => (s.closeFiring t f, none)

/-- ENDH of one context: what keeps it from ending, or none once it is free. -/
def State.endHandler (s : State) (u : Cur) : State × Option Act :=
  if !(s.ctx u).flights.isEmpty then ((s.endGroup u).modCtx u fun k => { k with status := .parked }, some .over)
  else
    let s := s.unbindAll u
    if !(s.unitsOf u).isEmpty then (s, some (.wait (.streamFlush none)))
    else match s.endKind u with
      | (s, some a) => (s, some a)
      | (s, none) => (s.freeCtx u, none)

/-- ENDH of a context and the end that it comes to. -/
def endOne (u : Cur) (len : Nat) (mark : Bool) (s : State) : State × Bool :=
  match s.endHandler u with
  | (s1, some a) => (finish u len mark s s1 a, false)
  | (s1, none) => (s1, true)

/-- ENDH of the context under way; in a gang each member's handler ends, and the gang dissolves (R173). -/
def endAll (len : Nat) (mark : Bool) (s : State) : State :=
  let u := s.cur
  match (s.tile u.tile).gangOf u.core u.ctx with
  | none => (endOne u len mark s).1
  | some g =>
    let r := endOne u len mark s
    if r.2 then (g.members.filter (· != (u.core, u.ctx))).foldl (fun s m => (endOne ⟨u.tile, m.1, m.2⟩ len mark s).1) r.1
    else r.1

/-- ENDH (R152). -/
def execEndh (o : Opnd) (s : State) : Host.Outcome State Fault Refusal := .next (endAll o.len o.mark s)

/-- WDONE (R246): in an item handler ENDH retires the coordinate, and elsewhere WDONE is ENDH. -/
def execWdone (o : Opnd) (s : State) : Host.Outcome State Fault Refusal := .next (endAll o.len o.mark s)

/-! ## ERET (R189) -/

/-- ERET frees the context: a firing ends with no close, and a coordinate retires as freed (R189, R233). -/
def State.eretFree (s : State) (u : Cur) : State :=
  let s := match s.firingOf u with | some f => s.endFiring u.tile f | none => s
  (s.retire u true).freeCtx u

/-- ERET (R189). An item handler's retirement may have to wait (R256). -/
def execEret (o : Opnd) (s : State) : Host.Outcome State Fault Refusal :=
  meaning o .none (fun s =>
    let u := s.cur
    if !s.supervisor then (s, .trap .privilege (Instr.eret o).info)
    else if s.me.eretFrees then
      match s.retireHeld u with
      | some w => (s, .wait w)
      | none => (s.eretFree u, .over)
    else ((s.modMe Ctx.eret).atMarker u o.mark, .over)) s

end Sys2Proof.Machine
end

