-- ==== Sys2Proof/Machine/Chase.lean ====
section
/-! DEFINITION. Chases as the module keeps them, their control blocks, and the accesses that are made through a chase's own translation
and key slot (R349, R358, R360, R411 to R413). -/

namespace Sys2Proof.Machine

/-! ## Chases -/

/-- What the module keeps of a chase. -/
def State.chase (s : State) (n : Nat) : Chase := s.chases.get Chase.reset n

/-- The state with what is kept of a chase changed. -/
def State.modChase (s : State) (n : Nat) (f : Chase → Chase) : State := { s with chases := s.chases.put n (f (s.chase n)) }

/-- The CCB of a chase (R411). Where no FORME instruction has named it, its place is an unknown of the configuration. -/
def State.ccbOf (s : State) (n : Nat) : Nat := match (s.chase n).ccb with | some a => a | none => Config.ccbOf n % 2 ^ 36 * 256

/-- The tiles that the running placement of a chase holds. -/
def State.runTiles (s : State) (n : Nat) : List Nat := match (s.chase n).run with | some c => c.tiles.map (·.tile) | none => []

/-- The tiles of the loaded placement of a chase. -/
def State.loadedTiles (s : State) (n : Nat) : List Nat := match (s.chase n).loaded with | some c => c.tiles.map (·.tile) | none => []

/-- A migration of the chase is in progress (R377). -/
def State.migrating (s : State) (n : Nat) : Bool := (s.rebals.get Rebalancer.reset n).migration.isSome

/-! ## Control blocks (R411, R412) -/

/-- A write of one of the micro-kernel's structures, under the system slot (R349, R389, R411). -/
def State.sysWrite (s : State) (pa n v : Nat) : State :=
  match s.keyPair pa 0 with
  | some key => s.dramWrite key pa n v
  | none => s

/-- The 256 bytes of a CCB break the table of R411 or R358: version, en, or a field marked zero. -/
def ccbBad (v : Nat) : Bool :=
  let flags := field v 1 1
  field v 0 1 != 1 || flags % 2 == 0 || decide (4 ≤ flags) || decide (64 ≤ field v 3 1) || field v 6 2 != 0 ||
  (flags / 2 % 2 == 1 && field v 8 8 != 0) || field v 16 8 % 2 ^ 15 != 0 || decide (2 ^ 44 ≤ field v 16 8) || field v 28 4 != 0 ||
  decide (1024 ≤ field v 46 2) || field v 62 2 != 0 || field v 108 148 != 0

/-- The chain of CCBs from one to a root has at most `n` blocks (R412). -/
def State.chainOk (s : State) : Nat → Nat → Bool
  | 0, _ => false
  | n + 1, ccb =>
    match s.ccbGet ccb 1 1 with
    | none => false
    | some flags =>
      if flags / 2 % 2 = 1 then true
      else match s.ccbGet ccb 8 8 with
        | some parent => s.chainOk n parent
        | none => false

/-- A CCB is valid (R411, R412, R418). -/
def State.ccbValid (s : State) (ccb : Nat) : Bool :=
  match s.tableRead ccb 256 with
  | .error _ => false
  | .ok v => !ccbBad v && s.chainOk 8 ccb && (match s.ccbKey ccb with | some k => k != 0 | none => false)

/-- An effective budget and those of its ancestors, whose own limits bind the chase too (R412): the least of them. -/
def State.budget (s : State) (bit off n : Nat) : Nat → Nat → Option Nat
  | 0, _ => none
  | fuel + 1, ccb =>
    match s.ccbGet ccb 1 1, s.ccbGet ccb 3 1 with
    | some flags, some ovr =>
      if flags / 2 % 2 = 1 then s.ccbGet ccb off n
      else match (s.ccbGet ccb 8 8).bind (s.budget bit off n fuel ·) with
        | none => none
        | some m => if ovr / 2 ^ bit % 2 = 1 then (s.ccbGet ccb off n).map (min m ·) else some m
    | _, _ => none

/-- The effective fault domain of a chase (R412, R430). -/
def State.domain_ (s : State) (n : Nat) : Option Nat := s.effective 5 52 2 8 (s.ccbOf n)

/-- One CCB lies at or below another in the tree, within `n` steps (R411, R425). -/
def State.below_ (s : State) (top : Nat) : Nat → Nat → Bool
  | 0, _ => false
  | n + 1, ccb =>
    ccb == top ||
      match s.ccbGet ccb 1 1, s.ccbGet ccb 8 8 with
      | some flags, some parent => flags / 2 % 2 == 0 && s.below_ top n parent
      | _, _ => false

/-! ## Accesses through a chase (R349, R360, R413) -/

/-- A walk from the root of a CCB. -/
def State.chaseWalk (s : State) (ccb va : Nat) (write : Bool) : Except Cause Xentry :=
  match s.tableRead (ccb + 16) 8, s.tableRead (ccb + 24) 4 with
  | .ok r, .ok g => s.walkFrom va write (BitVec.ofNat 32 g) (entryAddr (word r)) 3
  | .error c, _ => .error c
  | _, .error c => .error c

/-- The parts of a range that lie in different smallest pages, `fuel` of them at most. -/
def pageSplit : Nat → Nat → Nat → List (Nat × Nat)
  | 0, _, _ => []
  | fuel + 1, va, n =>
    let k := min n (2 ^ 19 - va % 2 ^ 19)
    if n = 0 then [] else (va, k) :: pageSplit fuel (va + k) (n - k)

/-- The pieces of a range through a chase, reads of `t` from the nearest copies; or the first that fails. -/
def State.chasePieces (s : State) (t ccb : Nat) (write : Bool) : List (Nat × Nat) → Except EngFault (List DPiece)
  | [] => .ok []
  | (va, n) :: ps =>
    match s.chaseWalk ccb va write with
    | .error c => .error ⟨va, c⟩
    | .ok e =>
      match s.chasePieces t ccb write ps with
      | .error f => .error f
      | .ok l => .ok (⟨if write then e.pa va else s.readPa t e va, n, va, some e⟩ :: l)

/-- A range of a chase's D translated: its pieces and key slot, or the fault. -/
def State.chaseRange (s : State) (t ccb va n : Nat) (write : Bool) : Except EngFault (List DPiece × Nat) :=
  if 2 ^ 57 < va + n then .error ⟨va, .spaceRange⟩
  else match s.chasePieces t ccb write (pageSplit (n / 2 ^ 19 + 2) va n) with
    | .error f => .error f
    | .ok ps =>
      let slot := (s.ccbKey ccb).getD 0
      match ps.find? fun p => p.kind == 0 && (s.keyPair p.pa slot).isNone with
      | some p => .error ⟨p.va, .keySlot⟩
      | none => .ok (ps, slot)

/-- `n` bytes read through a chase for a tile. -/
def State.chaseRead (s : State) (t ccb va n : Nat) : State × Except EngFault Nat :=
  match s.chaseRange t ccb va n false with
  | .error f => (s, .error f)
  | .ok (ps, slot) =>
    match ps.find? fun p => p.kind == 0 && s.dram.poisoned p.pa p.n with
    | some p => (s, .error ⟨p.va, .dramPoison⟩)
    | none => let r := s.readMixed slot ps; (r.1, .ok r.2)

/-- `n` bytes written through a chase by a tile's core, or nothing where a part of them fails. -/
def State.chaseWrite (s : State) (t core ccb va n v : Nat) : State × Except EngFault Unit :=
  match s.chaseRange t ccb va n true with
  | .error f => (s, .error f)
  | .ok (ps, slot) => (s.writeAny slot t 0x2000 ⟨core, 16⟩ 16 ps v, .ok ())

end Sys2Proof.Machine
end

