-- ==== Sys2Proof/Machine/Galley.lean ====
section
/-! DEFINITION. The galley service (chapter 15 of spec/): the always-on island, kicks and notices, ageing, acceptance, and the galley
instructions (R387 to R400). -/

namespace Sys2Proof.Machine

/-! ## The island (R387 to R393) -/

/-- The galley service changed. -/
def State.modGalleys (s : State) (f : GalleyService → GalleyService) : State := { s with galleys := f s.galleys }

/-- A galley's entry. -/
def State.galley (s : State) (g : Nat) : GalleyEntry := s.galleys.entries.get GalleyEntry.reset g

/-- The state with a galley's entry changed. -/
def State.modGalley (s : State) (g : Nat) (f : GalleyEntry → GalleyEntry) : State :=
  s.modGalleys fun y => { y with entries := y.entries.put g (f (y.entries.get GalleyEntry.reset g)) }

/-- A galley slot. -/
def State.slotAt (s : State) (r : Nat) : GalleySlot := s.galleys.slots.get GalleySlot.reset r

/-- The state with a galley slot changed. -/
def State.modSlot (s : State) (r : Nat) (f : GalleySlot → GalleySlot) : State :=
  s.modGalleys fun y => { y with slots := y.slots.put r (f (y.slots.get GalleySlot.reset r)) }

/-- The service tile of a front-end zone (R387). -/
def State.serviceTile (s : State) (z : Nat) : Option Nat := (s.galleys.serviceTags.find z).bind s.tileOf

/-- The front-end zone of a slot reference (R387). -/
def slotZone (r : Nat) : Nat := r / 32

/-- An age after `k` more milliseconds (R393). -/
def GalleyEntry.older (e : GalleyEntry) (k : Nat) : GalleyEntry :=
  if e.pending ∧ !e.mapped then { e with age := BitVec.ofNat 8 (min 255 (e.age.toNat + k)) } else e

/-- The ages as they stand: one more at each multiple of 1,000,000 ns since they were last counted (R393). -/
def State.ageGalleys (s : State) : State :=
  let k := s.now / 1000000 - s.galleys.agedAt / 1000000
  if k = 0 then s
  else s.modGalleys fun y => { y with agedAt := s.now, entries := y.entries.map fun e => (e.1, e.2.older k) }

/-- GALLEY_AGE_TICK (R393). -/
def execGalleyAgeTick (s : State) : Host.Outcome State Fault Refusal := .next s.ageGalleys

/-- The effective priority of a galley (R393). -/
def GalleyEntry.eff (e : GalleyEntry) : Nat := min (e.prio.toNat + e.age.toNat) e.cap.toNat

/-- A galley joins the notice queue of its zone (R391, R400). -/
def State.queueGalley (s : State) (g : Nat) : State :=
  let s := s.modGalley g fun e => { e with pending := true }
  let z := (s.galley g).zone.toNat
  s.modGalleys fun y => { y with queues := y.queues.put z (y.queues.get [] z ++ [g]) }

/-- A kick (R391): one step of the island. A kick with the latched tail changes nothing. -/
def State.kick (s : State) (g : Nat) (tail : BitVec 32) : State :=
  let s := s.ageGalleys
  let e := s.galley g
  if e.tail = tail then s
  else
    let s := s.modGalley g fun e => { e with tail := tail }
    if !e.en || e.mapped || e.pending || e.head == tail then s else s.queueGalley g

/-- KICK (R391): the island acts on the oldest of a galley's accepted kicks, which BILEEL_KICK has received (R467). -/
def execKick (galley : Nat) (tail : BitVec 32) (s : State) : Host.Outcome State Fault Refusal :=
  let k := (galley % 4096, tail)
  .next (if s.galleys.kicks.find? (·.1 == k.1) = some k then
      (s.modGalleys fun y => { y with kicks := y.kicks.erase k }).kick k.1 tail
    else s)

/-- KICK_PENDING (R392): the oldest galley of a zone's queue is notified to core 3 of the service tile, which wakes. -/
def execKickPending (zone : Nat) (s : State) : Host.Outcome State Fault Refusal :=
  match s.galleys.queues.get [] zone, s.serviceTile zone with
  | g :: gs, some t =>
    .next (if (s.core t 3).npend.getLsbD (noticeBit .kickPending) || s.moduleHeld 9 0x81 then s
      else ((s.modGalleys fun y => { y with queues := y.queues.put zone gs }).notify t 3 .kickPending (word g)).wakeTile t)
  | _, _ => .next s

/-! ## Acceptance (R394 to R396, R428) -/

/-- A packet as the galley service checks it (R390, R394): whether its descriptor is to be read, and its status. -/
def packetCheck (v : Nat) : Bool × BitVec 16 :=
  let dlen := field v 16 4
  let bad := dlen % 128 != 0 || decide (1920 < dlen) || field v 8 8 % 128 != 0 || decide (8 ≤ field v 1 1) || field v 20 4 != 0 ||
    field v 40 24 != 0
  (!bad, if 8 ≤ field v 0 1 then 0x8000 else if bad then 0x8002 else 0)

/-- Entries of an input's log that a command adds (R426, R428): its token, and the mark that follows every pint-th level-0 colophon. -/
def FormeInput.adds (i : FormeInput) (pint op level : Nat) : Nat :=
  if op = 3 ∧ level = 0 ∧ pint ≠ 0 ∧ (i.colophons + 1) % pint = 0 then 2 else 1

/-- The next command of a chase's slot would overfill the log of its input (R428); with ilsize 0 no log is kept. -/
def State.logHold (s : State) (chase op port level : Nat) : Bool :=
  let ccb := s.ccbOf chase
  let size := (s.ccbGet ccb 104 4).getD 0
  match (s.chase chase).inputs.find port with
  | none => false
  | some i => (op == 2 || op == 3) && size != 0 &&
      decide (size / 256 < i.logNext - i.logFirst + i.adds ((s.ccbGet ccb 80 4).getD 0) op level)

/-- The galley slots of a chase are held by a drain in colophon mode: every input has had its colophon (R421). -/
def State.inputsHeld (s : State) (chase : Nat) : Bool := !(s.chase chase).inputs.isEmpty && (s.chase chase).inputs.all fun i => i.2.heldAt

/-- The next command of a chase's slot feeds an input that has had the colophon of a drain (R421; assumption 51). -/
def State.colophonHold (s : State) (chase op port : Nat) : Bool :=
  (op == 2 || op == 3) && (match (s.chase chase).inputs.find port with | some i => i.heldAt | none => false)

/-- The records of a slot in core 2's event queue of its service tile. -/
def State.slotRecords (s : State) (r : Nat) : List Record :=
  match s.serviceTile (slotZone r) with
  | some t => (s.core t 2).evq.ready.filter fun k => k.engine == 9 && k.chan.toNat == r
  | none => []

/-- The snapshot area of the packet at head is free (R395): the record of the packet before it has been removed, or nothing has used
the area since the slot was mapped. -/
def State.areaFree (s : State) (r : Nat) (head : BitVec 32) : Bool :=
  decide ((s.slotAt r).count < 2) || (s.slotRecords r).all fun k => k.ident != head - 1

/-- A slot may accept (R394): a packet waits, nothing holds the slot, and an area is free. -/
def State.mayAccept (s : State) (r : Nat) : Bool :=
  let k := s.slotAt r
  let e := s.galley k.galley
  k.mapped && !k.stopped && !k.unmapping && k.fault.isNone && k.pendRec.isNone && e.head != e.tail && s.areaFree r e.head &&
    !s.inputsHeld k.chase && (s.serviceTile (slotZone r)).isSome

/-- What the packet at head comes to. -/
inductive Accepting where
  /-- nothing is accepted -/
  | no
  /-- the packet, its descriptor and its status -/
  | packet (s : State) (v : Nat) (desc : Option (Nat × Nat)) (status : BitVec 16)
  /-- a fault met by the slot's reads -/
  | fault (s : State) (f : EngFault)

/-- The reads of an acceptance (R394 step 1). -/
def State.acceptRead (s : State) (r : Nat) : Accepting :=
  if !s.mayAccept r then .no
  else
    let k := s.slotAt r
    let t := (s.serviceTile (slotZone r)).getD 0
    let ccb := s.ccbOf k.chase
    let i := (s.galley k.galley).head.toNat
    match s.chaseRead t ccb (k.ring + 64 * (i % 2 ^ k.rsize)) 64 with
    | (s, .error f) => .fault s f
    | (s, .ok v) =>
      let c := packetCheck v
      if s.logHold k.chase (field v 0 1) (field v 2 2) (field v 1 1 / 2 % 4) || s.colophonHold k.chase (field v 0 1) (field v 2 2) then .no
      else if !c.1 || field v 16 4 == 0 then .packet s v none c.2
      else match s.chaseRead t ccb (field v 8 8) (field v 16 4) with
        | (s, .error f) => .fault s f
        | (s, .ok d) => .packet s v (some (field v 16 4, d)) c.2

/-- T address of the snapshot area of a packet (R394). -/
def State.areaOf (s : State) (r i : Nat) : Nat :=
  (s.galleys.snapBases.get 0 (slotZone r) + 4096 * (r % 32) + 2048 * (i % 2)) % 2 ^ 20

/-- The record of an accepted packet is written, once core 2's queue has a free entry (R394 step 4). -/
def State.writeSlotRecord (s : State) (r : Nat) : State :=
  match (s.slotAt r).pendRec, s.serviceTile (slotZone r) with
  | some k, some t =>
    if (s.core t 2).evq.hasRoom then ((s.reserveEvent t 2).deliver t 2 k).modSlot r fun y => { y with pendRec := none } else s
  | _, _ => s

/-- Head advances, in the slot and in the island, and the record is to be written (R394 steps 3 and 4); the age and the pending bit clear
where the ring empties (R393). -/
def State.acceptEnd (s : State) (r : Nat) (status : BitVec 16) : State :=
  let s := s.ageGalleys
  let g := (s.slotAt r).galley
  let i := (s.galley g).head
  let rec_ := mkRecord 9 r status i (word (s.areaOf r i.toNat + 2 ^ 32 * g))
  let s := s.modGalley g fun e =>
    let e := { e with head := i + 1 }
    if e.head = e.tail then { e with age := 0, pending := false } else e
  let c : OpenCmd := ⟨g, i, status, (s.serviceTile (slotZone r)).getD 0, s.areaOf r i.toNat, (s.slotAt r).chase⟩
  let s := s.modGalleys fun y => { y with open_ := y.open_ ++ [c] }
  (s.modSlot r fun y => { y with pendRec := some rec_, count := y.count + 1 }).writeSlotRecord r

/-- PACKET_ACCEPT (R394): the snapshot and the record of the packet at head; or the record that waited for an entry. A key slot that is not
loaded ends the acceptance with its status and no snapshot (R349). -/
def execPacketAccept (slot : Nat) (s : State) : Host.Outcome State Fault Refusal :=
  if (s.slotAt slot).pendRec.isSome then .next (s.writeSlotRecord slot)
  else match s.acceptRead slot with
    | .no => .next s
    | .fault s' f => .next (if f.cause = .keySlot then s'.acceptEnd slot 0x801D else s)
    | .packet s' v desc status =>
      let t := (s'.serviceTile (slotZone slot)).getD 0
      let a := s'.areaOf slot (s'.galley (s'.slotAt slot).galley).head.toNat
      let s' := s'.writeLocal t 0 .t noKey a 64 v
      let s' := match desc with | some (n, d) => s'.writeLocal t 0 .t noKey (a + 128) n d | none => s'
      .next (s'.acceptEnd slot status)

/-- The fault report of a galley slot goes to the micro-kernel of the service tile (R364, R396). -/
def State.reportSlot (s : State) (r : Nat) (f : EngFault) : State :=
  let k := s.slotAt r
  let gen := (s.ccbGet (s.ccbOf k.chase) 24 4).getD 0
  match s.serviceTile (slotZone r) with
  | some t => s.modTile t fun y => { y with place := { y.place with
      tasks := y.place.tasks ++ [faultReport f.va f.cause 9 r 2 (s.galley k.galley).head.toNat gen] } }
  | none => s

/-- A condition of R429 strikes a chase: its rollback is due. -/
def State.strikeChase (s : State) (n : Nat) : State := s.modChase n fun c => { c with struck := true }

/-- ACCEPT_FAULT (R396): a translation fault holds the slot and is reported; poison rolls the chase back. -/
def execAcceptFault (slot : Nat) (s : State) : Host.Outcome State Fault Refusal :=
  match s.acceptRead slot with
  | .fault s' f =>
    .next (if f.cause = .keySlot then s
      else
        let s' := s'.modSlot slot fun y => { y with fault := some (f.va, f.cause) }
        if f.cause = .dramPoison then s'.strikeChase (s'.slotAt slot).chase else s'.reportSlot slot f)
  | .no | .packet _ _ _ _ => .next s

/-- The micro-kernel abandons a held acceptance (R396): the packet is accepted with the fault's status, its area unwritten. -/
def State.abandonSlot (s : State) (r : Nat) : State :=
  match (s.slotAt r).fault with
  | some (_, c) => (s.modSlot r fun y => { y with fault := none }).acceptEnd r (BitVec.ofNat 16 (0x8000 + c.code))
  | none => s

/-! ## The galley instructions (R397 to R400) -/


/-- QLOAD's value for a galley (R398). -/
def State.galleyWord (s : State) (g : Nat) : Nat :=
  let e := s.galley g
  g + 2 ^ 12 * e.eff + 2 ^ 17 * e.age.toNat + 2 ^ 25 * e.pending.toNat + 2 ^ 26 * e.mapped.toNat + 2 ^ 27 * (e.head == e.tail).toNat
    + 2 ^ 29 * (if e.mapped then e.slot.toNat else 0)

/-- QLOAD's value (R398). -/
def State.qload (s : State) (ga : Word) : Nat :=
  if ga.getLsbD 12 then
    if bits ga 7 5 ≠ 0 then 0
    else
      let k := s.slotAt (bits ga 0 7)
      if k.mapped then s.galleyWord k.galley else 2 ^ 28
  else s.galleyWord (bits ga 0 12)

/-- QLOAD (R398). -/
def execQload (o : Opnd) (s : State) : Host.Outcome State Fault Refusal :=
  meaning o .none (kernelOp (.qload o) (.g [an o] [dn o]) fun s =>
    let ga := s.rg (an o)
    computeLong o (fun s => word (s.qload ga)) s.ageGalleys) s

/-- The control block of a galley (R389): its address and its checks at QMAP (R399). -/
def State.blockOf (s : State) (g : Nat) : Nat := s.galleys.tableBase + 128 * g

/-- A control block fails a check of R399 for a slot of a zone. -/
def blockBad (v zone : Nat) : Bool :=
  let prio := field v 2 1
  let cap := field v 3 1
  let rsize := field v 16 1
  field v 0 1 != 1 || field v 1 1 != 1 || decide (15 < prio) || decide (cap < prio) || decide (31 < cap) || field v 6 1 != zone ||
  field v 8 8 % 4096 != 0 || decide (rsize < 4) || decide (16 < rsize) || field v 17 3 != 0 || field v 29 99 != 0

/-- QMAP's effect (R399): its status, and the slot with the galley. -/
def State.qmap (s : State) (r g : Nat) : State × Nat :=
  let e := s.galley g
  if (s.slotAt r).mapped then (s, 1)
  else if e.mapped then (s, 2)
  else match s.tableRead (s.blockOf g) 128 with
    | .error _ => (s, 3)
    | .ok v =>
      if blockBad v (slotZone r) || !e.en then (s, 3)
      else
        let s := s.modGalley g fun e => { e with mapped := true, slot := BitVec.ofNat 7 r }
        (s.modSlot r fun y => { GalleySlot.reset with
          stopped := y.stopped
          ring := field v 8 8, rsize := field v 16 1, chase := field v 4 2, galley := g, mapped := true }, 0)

/-- QMAP (R399). -/
def execQmap (o : Opnd) (s : State) : Host.Outcome State Fault Refusal :=
  meaning o .none (kernelOp (.qmap o) (.g [an o, bn o] [dn o]) fun s =>
    let r := s.ageGalleys.qmap (bits (s.rg (an o)) 0 7) (bits (s.rg (bn o)) 0 12)
    computeLong o (fun _ => word r.2) r.1) s

/-- Head, tail, age and slot go into the control block (R400 step 2), as the tokens of one release. -/
def State.saveBlock (s : State) (r : Nat) : State :=
  let g := (s.slotAt r).galley
  let e := s.galley g
  let a := s.blockOf g
  ((s.sysWrite (a + 7) 1 r).sysWrite (a + 20) 8 (e.head.toNat + 2 ^ 32 * e.tail.toNat)).sysWrite (a + 28) 1 e.age.toNat

/-- A slot is unmapped, in one step of the island; a hold of its control item stands (R400, R405). -/
def State.unmapSlot (s : State) (r : Nat) : State :=
  let g := (s.slotAt r).galley
  let s := (s.modGalley g fun e => { e with mapped := false }).modSlot r fun y => { GalleySlot.reset with stopped := y.stopped }
  if (s.galley g).head = (s.galley g).tail then s else s.queueGalley g

/-- The effect of QSAVE and QUNMAP (R400); an acceptance that a fault holds is in progress too. -/
def saveSlot (o : Opnd) (unmap : Bool) (s : State) : State × Act :=
  let r := bits (s.rg (an o)) 0 7
  let s := s.ageGalleys
  let k := s.slotAt r
  if !k.mapped then computeLong o (fun _ => 1) s
  else if s.owesAt 0 then (s, .wait (.fence 2 0))
  else if k.pendRec.isSome || k.fault.isSome then (s, .wait (.galley r))
  else
    let s := s.saveBlock r
    if !unmap then computeLong o (fun _ => 0) s
    else if (s.slotRecords r).isEmpty then computeLong o (fun _ => 0) (s.unmapSlot r)
    else (s.modSlot r fun y => { y with unmapping := true }, .wait (.galley r))

/-- QSAVE (R400). -/
def execQsave (o : Opnd) (s : State) : Host.Outcome State Fault Refusal :=
  meaning o .none (kernelOp (.qsave o) (.g [an o] [dn o]) (saveSlot o false)) s

/-- QUNMAP (R400). -/
def execQunmap (o : Opnd) (s : State) : Host.Outcome State Fault Refusal :=
  meaning o .none (kernelOp (.qunmap o) (.g [an o] [dn o]) (saveSlot o true)) s

/-- QSAVE or QUNMAP of a slot may go on: no acceptance is in progress, and with QUNMAP none is left to be removed (R400). -/
def State.slotQuiet (s : State) (r : Nat) : Bool :=
  let k := s.slotAt r
  k.pendRec.isNone && k.fault.isNone && (!k.unmapping || (s.slotRecords r).isEmpty)

end Sys2Proof.Machine
end

