-- ==== Sys2Proof/Machine/EngineState.lean ====
section
/-! DEFINITION. The items of the engines that ENGRD and ENGWR name (R404): the words of each item, and the state that words describe
(R227, R250, R264, R289, R315, R344, R371, R386, R388, R405, R442, R467, R468, R472, R475). Every field takes words of its own (R404). -/

namespace Sys2Proof.Machine

/-! ## Words -/

/-- `n` words of a number, the least significant first. -/
def wordsOf : Nat → Nat → List Word
  | 0, _ => []
  | n + 1, v => word v :: wordsOf n (v / 2 ^ 64)

/-- The number that words hold, the first the least significant. -/
def natOfWords : List Word → Nat
  | [] => 0
  | w :: ws => w.toNat + 2 ^ 64 * natOfWords ws

/-- Word `i` of an item; 0 beyond its end. -/
def wd (ws : List Word) (i : Nat) : Word := ws.getD i 0

/-- Word `i` as a number. -/
def wn (ws : List Word) (i : Nat) : Nat := (wd ws i).toNat

/-- Words brought to a length with zeros, or cut to it. -/
def padTo (n : Nat) (ws : List Word) : List Word := (List.range n).map (wd ws)

/-- Part `i` of words that stand in parts of `n`. -/
def part (ws : List Word) (n i : Nat) : List Word := (ws.drop (n * i)).take n

/-- A number whose bit `i` says whether `p` holds, for `i` below `n`. -/
def maskOf (n : Nat) (p : Nat → Bool) : Nat := (List.range n).foldl (fun v i => v + 2 ^ i * (p i).toNat) 0

/-- The bits of a number that are set, of the low `n`. -/
def setBits (n : Nat) (v : Word) : List Nat := (List.range n).filter fun i => v.getLsbD i

/-! ## Copy channels (R227) -/

/-- The quoin entries of an operation, as a mask. -/
def State.quoinMask (s : State) (t core engine chan : Nat) (ident : BitVec 32) : Nat :=
  (s.tile t).eng.quoins.foldl (fun v p =>
    if p.2.issuer = core ∧ p.2.engine = engine ∧ p.2.chan = chan ∧ p.2.ident = ident then v + 2 ^ p.1 else v) 0

/-- A queue entry of a channel: identifier, snapshot, core, context, reserved event entry and quoin entries; zeros where there is none. -/
def State.transferWords (s : State) (t h k : Nat) : List Word :=
  match (s.channel t h).queue[k]? with
  | none => padTo 21 []
  | some r =>
    [r.ident.setWidth 64] ++ ((List.range 16).map fun i => r.snap.get 0 i) ++
      [word r.by_.core, word r.by_.ctx, word (planOf r.snap).ev.toNat, word (s.quoinMask t r.by_.core 1 h r.ident)]

/-- What a transfer holds besides its place in the queue is given back: quoin entries, event entry, tagged operation. -/
def State.forgetTransfer (s : State) (t h : Nat) (r : Transfer) : State :=
  let p := planOf r.snap
  let s := s.dropQuoins t r.by_.core 1 h r.ident
  let s := if p.ev then s.modCore t r.by_.core fun k => { k with evq := { k.evq with held := k.evq.held - 1 } } else s
  if p.qtag then s.modQuire t p.qnum fun q => { q with tagged := q.tagged - 1 } else s

/-- What a transfer holds besides its place in the queue is taken, as at CPGO (R201). -/
def State.enlistTransfer (s : State) (t h : Nat) (r : Transfer) : State :=
  let p := planOf r.snap
  let core := r.by_.core
  let s := if p.ev then s.reserveEvent t core else s
  let s := if p.quoin then s.addQuoins t (p.src.quoins p.lens p.total false core 1 h r.ident ++
    p.dst.quoins p.lens p.total true core 1 h r.ident) else s
  if p.qtag then s.modQuire t p.qnum fun q => { q with tagged := q.tagged + 1 } else s

/-- The transfer that words describe; the rounding mode and the key rows are those of the context that it names. -/
def State.transferOf (s : State) (t : Nat) (ws : List Word) : Transfer :=
  let by_ : Issuer := ⟨wn ws 17 % 4, wn ws 18⟩
  let c := s.ctx ⟨t, by_.core, by_.ctx⟩
  { ident := (wd ws 0).setWidth 32, snap := (List.range 16).foldl (fun (m : Sparse Word) i => m.set 0 i (wd ws (1 + i))) [], rnd := c.sys.fmode
    bkey := c.sys.bkey, by_ := by_, flags := 0, voided := false, cancel := false, bytes := 0 }

/-- The items of a unit as they stand with what ENGWR has written, and which of their words it wrote. -/
structure Written where
  item : Nat → List Word
  wrote : Nat → Nat → Bool

/-- Words that hold nothing. -/
def blankWords (ws : List Word) : Bool := ws.all (· == 0)

/-- The entries of a queue from `done` to `next` as the eight items from `first` describe them: one whose words `now` are as written is as it
was. An identifier that no item holds names nothing. -/
def entriesOf {α : Type} (w : Written) (first : Nat) (now : Nat → List Word) (old : List α) (make : List Word → α) (ident : α → BitVec 32)
    (done next : BitVec 32) : List α :=
  let said : List α := (List.range 8).filterMap fun k =>
    let ws := w.item (first + k)
    match old[k]? with
    | some a => if now k = ws then some a else if blankWords ws then none else some (make ws)
    | none => if blankWords ws then none else some (make ws)
  (List.range (min 8 (next - done).toNat)).filterMap fun i => said.find? fun a => ident a == done + BitVec.ofNat 32 i

/-- The fault that a held flag stands for: the one there was, or that of the access which the node holds for the unit (R371). -/
def State.heldFault (s : State) (t e u : Nat) (held : Bool) (old : Option (Nat × Cause)) : Option (Nat × Cause) :=
  if !held then none
  else match old with
    | some f => some f
    | none => ((s.tile t).eng.xnode.held.find? fun h => h.engine == e && h.chan == u).map fun h => (h.va, h.cause)

/-- A copy channel rebuilt (R227): a transfer that it is rebuilt without completes with status 0x4000 (R215), and a new head starts at the
first element of the round written. -/
def State.rebuildChannel (s : State) (t h : Nat) (w : Written) : State :=
  let k := s.channel t h
  let done : BitVec 32 := (wd (w.item 1) 0).setWidth 32
  let next : BitVec 32 := ((wd (w.item 1) 0) >>> 32).setWidth 32
  let queue := entriesOf w 2 (s.transferWords t h) k.queue (s.transferOf t) (·.ident) done next
  let gone := k.queue.filter fun r => !queue.any fun q => q.ident == r.ident
  let changed := k.queue.filter fun r => queue.any fun q => q.ident == r.ident && q != r
  let same := queue.head?.map (·.ident) == k.queue.head?.map (·.ident)
  let moved := w.wrote 10 1 && decide (wn (w.item 10) 1 ≠ k.pos)
  let fresh := queue.filter fun r => !k.queue.contains r
  let s := changed.foldl (fun s r => s.forgetTransfer t h r) s
  let s := s.modChannel t h fun k => { k with
    shadow := (List.range 16).foldl (fun (m : Sparse Word) n => m.set 0 n (wd (w.item 0) n)) []
    done := done
    next := next
    queue := queue
    pos := if same || w.wrote 10 1 then wn (w.item 10) 1 else 0
    fault := if same || w.wrote 10 0 then s.heldFault t 1 h (decide (wn (w.item 10) 0 % 2 = 1)) (if same then k.fault else none) else none
    ending := if same && !moved then k.ending else none
    dropped := k.dropped ++ gone }
  let s := fresh.foldl (fun s r => s.enlistTransfer t h r) s
  State.completeDropped t h (s.channel t h).dropped s

/-- The items of a copy channel. -/
def State.chanItem (s : State) (t h i : Nat) : Option (List Word) :=
  let k := s.channel t h
  if i = 0 then some ((List.range 16).map fun n => k.shadow.get 0 n)
  else if i = 1 then some [k.progress]
  else if i < 10 then some (s.transferWords t h (i - 2))
  else if i = 10 then some [word k.fault.isSome.toNat, word k.pos]
  else none

/-! ## Stream units (R227) -/

/-- The descriptor of a pattern (R217), as 64 bytes in words. -/
def Pattern.descWords (p : Pattern) : List Word :=
  let len (i : Nat) : Nat := p.lens.getD i 0 % 2 ^ 32
  [word (p.base % 2 ^ 57 + 2 ^ 57 * p.space.code + 2 ^ 60 * p.core), word (len 0 + 2 ^ 32 * len 1), word (len 2 + 2 ^ 32 * len 3)] ++
    ((List.range 4).map fun i => wordI (p.steps.getD i 0)) ++
    [word (p.fmt + 16 * p.stopMask.toNat + 256 * p.seg.toNat + 512 * p.quoin.toNat + 1024 * p.ev.toNat + 2 ^ 32 * p.segbase)]

/-- The run before `run` that holds an element, with its length. -/
def runBefore (lenOf : Nat → Nat) : Nat → Nat × Nat
  | 0 => (0, 0)
  | r + 1 => if lenOf r = 0 then runBefore lenOf r else (r, lenOf r)

/-- A read binding with one item of its buffer taken back: it is to be read again. -/
def Binding.unread (lenOf : Nat → Nat) (b : Binding) : StreamItem → Binding
  | .terminal => { b with ended := false }
  | .stop _ =>
    if b.pat.seg then { b with run := b.run - 1, inRun := lenOf (b.run - 1), runLen := none, ended := false } else { b with inRun := 1, ended := false }
  | .elem _ | .bad _ _ =>
    if b.pat.seg then
      let p := if b.inRun = 0 then runBefore lenOf b.run else (b.run, b.inRun)
      { b with next := b.next - 1, run := p.1, inRun := p.2 - 1, runLen := none, ended := false }
    else { b with next := b.next - 1, inRun := 0, ended := false }

/-- A read binding with its buffer taken back whole. In a pattern that is not segmented `inRun` tells, as 1, that the stop token after
the element before `next` still stands. -/
def Binding.rewound (lenOf : Nat → Nat) (b : Binding) : Binding :=
  { b.buf.reverse.foldl (fun b i => b.unread lenOf i) { b with inRun := if b.pat.seg then b.inRun else 0 } with buf := [] }

/-- Lengths of the runs of a binding; a length that cannot be read counts 0. -/
def State.runLens (s : State) (t : Nat) (b : Binding) (j : Nat) : Nat := match s.segLen t b j with | .ok n => n | .error _ => 0

/-- The item of a stream unit: owner, descriptor, kind (0 read, 1 write, 2 none), count, next, run, element of the run, held. -/
def State.unitWords (s : State) (t c u : Nat) : List Word :=
  match s.bindingAt t c u with
  | none => padTo 15 ((padTo 9 []) ++ [2])
  | some b =>
    let r := if b.write then b else b.rewound (s.runLens t b)
    [word b.owner] ++ b.pat.descWords ++
      [word b.write.toNat, word b.count, word r.next, word r.run, word r.inRun, word b.fault.isSome.toNat]

/-- A binding is cancelled: it completes with status 0x4000, and its owner's next use of the register traps (R215, R225). -/
def State.cancelBinding (s : State) (t c u : Nat) : State :=
  match s.bindingAt t c u with
  | none => s
  | some b => (s.endBinding t c u b .cancelled).modCore t c fun k =>
      k.setStream u { k.stream u with cancelled := b.owner :: (k.stream u).cancelled.filter (· != b.owner) }

/-- The binding that words describe, as `old` was: its number, key rows and conversion of the run under way are kept. -/
def State.boundBy (s : State) (t c u : Nat) (ws : List Word) : Binding :=
  let pat := patternOf (natOfWords (part (ws.drop 1) 8 0))
  let owner := wn ws 0
  let base := match s.bindingAt t c u with
    | some b => { b with
        owner := owner, pat := pat, write := wn ws 9 == 1
        fault := s.heldFault t 1 (0x40 + 16 * c + u) (decide (wn ws 14 % 2 = 1)) b.fault }
    | none => newBinding owner (wn ws 9 == 1) pat (s.ctx ⟨t, c, owner⟩).sys.bkey (((s.core t c).stream u).nbind + 1)
  let b : Binding :=
    { base with count := wn ws 10, next := wn ws 11, run := wn ws 12, inRun := wn ws 13, runLen := none, buf := [], open_ := [], ended := false }
  if b.write then (if pat.seg then (let n := s.runLens t b b.run
      if b.inRun < n then { b with runLen := some n } else b.seek (s.segLen t b) (b.run + 1)) else b)
  else if !pat.seg && b.inRun == 1 && decide (0 < b.next) then
    { b with inRun := 0, buf := pat.stopAfter (b.next - 1), ended := decide (b.next = pat.total) }
  else b

/-- The item of a stream unit rebuilt: a read binding reads its elements again from the position written (R227). -/
def State.setUnit (s : State) (t c u : Nat) (ws : List Word) : State :=
  if s.unitWords t c u = padTo 15 ws ∧ wn ws 9 ≠ 0 then s
  else if 2 ≤ wn ws 9 then s.cancelBinding t c u
  else
    let b := s.boundBy t c u ws
    let vector := decide (8 ≤ u)
    let s := match s.bindingAt t c u with
      | some _ => s.dropQuoins t c 1 (streamChan u) b.ident
      | none => if b.pat.ev then s.reserveEvent t c else s
    (s.addQuoins t (b.pat.quoinEntry vector b.write c u b.ident)).modCore t c fun k =>
      k.setStream u { bind := some { b with held := true }
                      nbind := if below (k.stream u).nbind b.ident then b.ident else (k.stream u).nbind
                      cancelled := (k.stream u).cancelled.filter (· != b.owner) }

/-! ## Slot tables (R226) -/

/-- An entry of a slot table: even entries are direct and odd ones name no requester at reset. -/
def TileEngines.slot (e : TileEngines) (n : Nat) : Nat := e.slotTable.get (if n % 2 = 0 then 0x80 else 0xC0) n

/-- A slot table as four words. -/
def TileEngines.slotWords (e : TileEngines) (u : Nat) : List Word :=
  wordsOf 4 (natOfBytes ((List.range 32).map fun i => BitVec.ofNat 8 (e.slot (32 * u + i))))

/-- A slot table written. -/
def TileEngines.setSlots (e : TileEngines) (u : Nat) (bytes : List Byte) : TileEngines :=
  { e with slotTable := (List.range 32).foldl (fun m i => m.put (32 * u + i) (bytes.getD i 0).toNat) e.slotTable }

/-! ## Walkers (R250, R232) -/

/-- The 64-byte state of a walker (R250). -/
def Walker.stateWords (w : Walker) : List Word :=
  match w.piece with
  | none => padTo 8 []
  | some p =>
    [word (p.sigAddr % 2 ^ 20 + 2 ^ 20 * p.flying.length + 2 ^ 23 * p.thief.toNat + 2 ^ 24 * p.home.core + 2 ^ 32 * p.walk.toNat),
     word (p.next + 2 ^ 40 * p.home.tag.toNat), word p.stop, word p.retired] ++
      (List.range 4).map fun i => match p.flying.find i with | some k => word (k.index + 2 ^ 40) | none => 0

/-- The piece that words describe, its signature read again from T (R251); a coordinate keeps the context that holds it. -/
def State.pieceOf (s : State) (t c : Nat) (ws : List Word) : Option Piece :=
  if ws.all (· == 0) then none
  else
    let h := wd ws 0
    let a := bits h 0 20
    let g := signatureOf (s.readLocal t 0 .t noKey a 128)
    let old := (s.walker t c).piece
    let holder (i : Nat) : Option Nat :=
      (old.bind fun p => (p.flying.find? fun e => e.2.index == i).map Prod.snd).bind Coord.ctx
    let flying := (List.range 4).foldl (fun (m : Sparse Coord) i =>
      let w := wd ws (4 + i)
      if w.getLsbD 40 then m.put i ⟨bits w 0 40, holder (bits w 0 40)⟩ else m) []
    some { walk := (h >>> 32).setWidth 32, sigAddr := a, sig := g, total := g.total, thief := h.getLsbD 23
           home := ⟨BitVec.ofNat 24 (bits (wd ws 1) 40 24), bits h 24 2⟩, next := bits (wd ws 1) 0 40, stop := bits (wd ws 2) 0 40
           retired := bits (wd ws 3) 0 40, freed := match old with | some p => p.freed | none => 0, flying := flying
           ecc := s.badLocal t 0 .t noKey a 128 }

/-- An open walk: valid, identifier, total, retired, freed, ev, issuing core and context. -/
def OpenWalk.words (w : OpenWalk) : List Word :=
  [1, w.walk.setWidth 64, word w.total, word w.retired, word w.freed, word w.ev.toNat, word w.by_.core, word w.by_.ctx]

/-- The open walks that words describe. -/
def openWalksOf (ws : List Word) : List OpenWalk :=
  (List.range 4).filterMap fun i =>
    let w := part ws 8 i
    if wn w 0 = 0 then none
    else some { walk := (wd w 1).setWidth 32, total := wn w 2, retired := wn w 3, freed := wn w 4, ev := wn w 5 == 1
                by_ := ⟨wn w 6, wn w 7⟩, ecc := none }

/-! ## Quires and sparse accumulators (R264, R289) -/

/-- A quire: its 32-byte descriptor, LP, turns, the banks, tagged operations, err. -/
def Quire.words (q : Quire) : List Word :=
  let v := q.raw % 2 ^ 80 + q.en.toNat * 2 ^ 80 + q.raw / 2 ^ 81 * 2 ^ 81
  wordsOf 4 v ++ [word q.lp, q.turns] ++
    ((List.range 14).map fun p => word (q.bank p)) ++ [word q.tagged, word q.err]

/-- The quire that words describe. The vector unit has still to follow each core's arrivals beyond its own, with no element outstanding:
what the descriptor's cores had appended was performed when its bindings were read (R227, R255). -/
def quireOf (ws : List Word) : Quire :=
  let v := natOfWords (ws.take 4)
  let bank (p : Nat) : Nat := wn ws (6 + p) % 16
  let parts : BitVec 14 := BitVec.ofNat 14 (field v 12 2)
  { en := field v 10 1 % 2 == 1, base := field v 0 4 % 2 ^ 20, leaf := field v 4 4 % 2 ^ 20, depth := field v 8 1, dmax := field v 9 1
    parts := parts, lp := wn ws 4, turns := wd ws 5
    banks := (List.range 14).foldl (fun (m : Sparse Nat) p => m.set 0 p (bank p)) [], tagged := wn ws 20, err := wn ws 21, raw := v
    marks := ((List.range 4).filter fun c => parts.getLsbD c && parts.getLsbD 13).foldl
      (fun (m : Sparse (List (List (Nat × BitVec 32 × BitVec 32)))) c => m.put c (List.replicate (bank c - bank 13) [])) [] }

/-- A sparse accumulator: format (1 for s32), count, entries. -/
def Spa.words (a : Spa) : List Word :=
  padTo 1026 ([word a.isS32.toNat, word a.entries.length] ++ a.entries.map fun e => word (e.1 + 2 ^ 32 * e.2.toNat))

/-- The sparse accumulator that words describe. -/
def spaOf (ws : List Word) : Spa :=
  { isS32 := wn ws 0 == 1
    entries := ((ws.drop 2).take (min 1024 (wn ws 1))).foldl (fun (m : Sparse (BitVec 32)) w => m.put (bits w 0 32) ((w >>> 32).setWidth 32)) [] }

/-! ## Matrix queues (R315) -/

/-- Major and f of a command (R301 to R304), as 2 × major + f. -/
def MOp.number : MOp → Nat
  | .mma z => z.toNat
  | .mmac z => 2 + z.toNat
  | .mwload => 4
  | .mclr => 6
  | .mdrain => 7

/-- The command of a number. -/
def mopOf (n : Nat) : MOp :=
  match n with
  | 0 => .mma false
  | 1 => .mma true
  | 2 => .mmac false
  | 3 => .mmac true
  | 4 => .mwload
  | 6 => .mclr
  | _ => .mdrain

/-- A queue entry: identifier, major, f, payload, descriptors, context, key rows, rounding, event entry, quoin entries. -/
def State.commandWords (s : State) (t c k : Nat) : List Word :=
  match (s.core t c).mq.cmds[k]? with
  | none => padTo 12 []
  | some m =>
    [m.ident.setWidth 64, word (m.op.number / 2), word (m.op.number % 2), m.mod.setWidth 64, m.dd, m.da, m.db,
     word (if m.live || decide (nobody < m.ctx) then m.ctx else nobody),
     m.bkey.setWidth 64, m.rnd.setWidth 64, word m.event.toNat, word (s.quoinMask t c 5 c m.ident)]

/-- The command that words describe. -/
def commandOf (ws : List Word) : MCmd :=
  { ident := (wd ws 0).setWidth 32, op := mopOf (2 * wn ws 1 + wn ws 2 % 2), mod := (wd ws 3).setWidth 10, dd := wd ws 4, da := wd ws 5, db := wd ws 6
    ctx := wn ws 7 % 64, live := decide (wn ws 7 < nobody), cancel := false, bkey := (wd ws 8).setWidth 56, rnd := (wd ws 9).setWidth 3 }

/-- What a command holds besides its place in the queue is given back. -/
def State.forgetCommand (s : State) (t c : Nat) (m : MCmd) : State :=
  let s := s.dropQuoins t c 5 c m.ident
  let s := if m.event then s.modCore t c fun k => { k with evq := { k.evq with held := k.evq.held - 1 } } else s
  if m.tag then s.modQuire t m.quire fun q => { q with tagged := q.tagged - 1 } else s

/-- What a command holds besides its place in the queue is taken, as at issue (R300). -/
def State.enlistCommand (s : State) (t c : Nat) (m : MCmd) : State :=
  let quoins : List Quoin := if m.quoin then (m.ranges.filter fun r => r.1 != .d).map fun r =>
      { space := r.1, core := if r.1 == .t then 0 else c, base := r.2.1, len := r.2.2.1, dst := r.2.2.2, issuer := c
        engine := 5, chan := c, ident := m.ident } else []
  let s := if m.event then s.reserveEvent t c else s
  let s := s.addQuoins t quoins
  if m.tag then s.modQuire t m.quire fun q => { q with tagged := q.tagged + 1 } else s

/-- A matrix queue rebuilt (R315): a command that it is rebuilt without completes with status 0x4000 (R314), and a head restarts at the K
block written. -/
def State.rebuildMq (s : State) (t c : Nat) (w : Written) : State :=
  let q := (s.core t c).mq
  let done : BitVec 32 := (wd (w.item 9) 0).setWidth 32
  let next : BitVec 32 := (wd (w.item 9) 1).setWidth 32
  let cmds := entriesOf w 0 (s.commandWords t c) q.cmds commandOf (·.ident) done next
  let same := cmds.head?.map (·.ident) == q.cmds.head?.map (·.ident)
  let moved := w.wrote 8 0 && decide (wn (w.item 8) 0 ≠ q.pos)
  let gone := (q.cmds.mapIdx fun k m => (m, if k = 0 then q.flags else 0)).filter fun m => !cmds.any fun n => n.ident == m.1.ident
  let changed := q.cmds.filter fun m => cmds.any fun n => n.ident == m.ident && n != m
  let fresh := cmds.filter fun m => !q.cmds.contains m
  let fault := s.heldFault t 5 c (decide (wn (w.item 8) 1 % 2 = 1)) (if same then q.fault else none)
  let s := changed.foldl (fun s m => s.forgetCommand t c m) s
  let s := s.modMq t c fun q => { q with
    done := done
    next := next
    cmds := cmds
    pos := if same || w.wrote 8 0 then wn (w.item 8) 0 else 0
    flags := if same || w.wrote 10 0 then (wd (w.item 10) 0).setWidth 7 else 0
    fault := if same || w.wrote 8 1 then fault.map fun f => if w.wrote 8 2 then (wn (w.item 8) 2, f.2) else f else none
    ending := if same && !moved then q.ending else none
    dropped := q.dropped ++ gone }
  let s := fresh.foldl (fun s m => s.enlistCommand t c m) s
  State.completeLeft t c (s.core t c).mq.dropped s

/-- The items of a matrix queue. -/
def State.mqItem (s : State) (t c i : Nat) : Option (List Word) :=
  let q := (s.core t c).mq
  if i < 8 then some (s.commandWords t c i)
  else if i = 8 then some [word q.pos, word q.fault.isSome.toNat, word (match q.fault with | some f => f.1 | none => 0)]
  else if i = 9 then some [q.done.setWidth 64, q.next.setWidth 64]
  else if i = 10 then some [q.flags.setWidth 64]
  else none

/-- The arbiter: four weights, current queue, remaining credit. -/
def MArbiter.words (a : MArbiter) : List Word := (List.range 4).map (fun i => word (a.weights.getD i 0)) ++ [word a.cur, word a.credit]

/-- The arbiter rebuilt. -/
def MArbiter.ofWords (a : MArbiter) (ws : List Word) : MArbiter :=
  { a with weights := (List.range 4).map (wn ws), cur := wn ws 4 % 4, credit := wn ws 5, fresh := false }

/-! ## Port engine (R344) -/

/-- An input port's descriptor (R317). -/
def InPort.word (d : InPort) : Word :=
  Machine.word (d.arc.toNat + 2 * d.bound.toNat + 4 * d.auto.toNat + 8 * d.inv + 32 * d.sticky + 2 ^ 16 * d.entry.toNat + 2 ^ 40 * d.budget.toNat)

/-- An input port with its descriptor rebuilt; the producer of an arc that it gives the port is known by the port's tokens alone (R319). -/
def InPort.ofWord (d : InPort) (w : Word) : InPort :=
  { d with src := if d.arc then d.src else none, arc := w.getLsbD 0, bound := w.getLsbD 1, auto := w.getLsbD 2, inv := bits w 3 2, sticky := bits w 5 8
           entry := BitVec.ofNat 17 (bits w 16 17), budget := BitVec.ofNat 24 (bits w 40 24) }

/-- The kind of a type and a value. -/
def tokKindOf (type value : Nat) : TokKind :=
  match type with
  | 0 => .data | 1 => .colophon value | 2 => .proof (BitVec.ofNat 32 value) | 3 => .probe | 12 => .seam | _ => .data

/-- A token in a queue: its 16-byte header (R316, R351), for the tag and port at which it stands, and its payload. -/
def Tok.words (k : Tok) (dst : Tag) (dport : Nat) : List Word := wordsOf 2 (k.header dst dport) ++ wordsOf 16 k.body

/-- The token that words describe, if they describe one: the class of a token is never 0 (R38). A DRAM reply's slot is its source's (R355). -/
def tokOf (ws : List Word) : Option Tok :=
  let h := wd ws 0
  let g := wd ws 1
  let v := natOfWords (ws.drop 2)
  let type := bits h 30 4
  let stag : Tag := g.setWidth 24
  if h = 0 then none
  else some { kind := tokKindOf type (if type = 1 then bits h 34 2 else v), payload := BitVec.ofNat 1024 (if type = 2 then 0 else v)
              len := bits h 36 5, stag := stag, sport := bits g 24 4, seq := (g >>> 32).setWidth 32
              status := if type = 10 then BitVec.ofNat 16 (bits h 48 16) else 0, row := if type = 10 then bits h 41 4 else 0
              dreq := if type = 10 then some (stag, bits g 24 4) else none, via := none }

/-- An input queue (R344): eight tokens with headers, the resident flag, its uses left, the sealed flag, and the level that sealed. -/
def InPort.queueWords (d : InPort) (dst : Tag) (dport : Nat) : List Word :=
  padTo 144 (d.queue.flatMap fun k => k.words dst dport) ++
    [Machine.word d.uses.isSome.toNat, Machine.word (d.uses.getD 0), Machine.word d.sealed_.isSome.toNat, Machine.word (d.sealed_.getD 0)]

/-- An input port with its queue rebuilt. -/
def InPort.setQueue (d : InPort) (ws : List Word) : InPort :=
  { d with queue := (List.range 8).filterMap fun i => tokOf (part ws 18 i)
           uses := if wn ws 144 = 1 then some (wn ws 145) else none
           sealed_ := if wn ws 146 = 1 then some (wn ws 147 % 4) else none }

/-- An output port's descriptor (R318). -/
def OutPort.word (o : OutPort) : Word :=
  Machine.word (o.dtag.toNat + 2 ^ 24 * o.dport + 2 ^ 28 * o.arc.toNat + 2 ^ 29 * o.auto.toNat + 2 ^ 32 * o.seq.toNat)

/-- An output port with its descriptor rebuilt. -/
def OutPort.ofWord (o : OutPort) (w : Word) : OutPort :=
  { o with dtag := w.setWidth 24, dport := bits w 24 4, arc := w.getLsbD 28, auto := w.getLsbD 29, seq := (w >>> 32).setWidth 32 }

/-- The actor descriptor (R320). -/
def ActorDesc.words (d : ActorDesc) : List Word :=
  [word (d.args.toNat + 2 ^ 20 * d.fcore.toNat + 2 ^ 22 * d.cfire.toNat + 2 ^ 23 * d.fcap.toNat + 2 ^ 25 * d.mlimit.toNat
    + 2 ^ 32 * d.mbase.toNat + 2 ^ 52 * d.mcap.toNat), d.bkey.setWidth 64]

/-- The actor descriptor that words describe. -/
def actorOfWords (ws : List Word) : ActorDesc :=
  let w := wd ws 0
  { args := w.setWidth 20, fcore := BitVec.ofNat 2 (bits w 20 2), cfire := w.getLsbD 22, fcap := BitVec.ofNat 2 (bits w 23 2)
    mlimit := BitVec.ofNat 7 (bits w 25 7), mbase := BitVec.ofNat 20 (bits w 32 20), mcap := BitVec.ofNat 2 (bits w 52 2)
    bkey := (wd ws 1).setWidth 56 }

/-- A mail binding (R320). -/
def MailBinding.word (b : MailBinding) : Word := Machine.word (b.entry.toNat + 2 ^ 17 * b.valid.toNat + 2 ^ 40 * b.budget.toNat)

/-- The mail binding that a word describes. -/
def mailBindingOf (w : Word) : MailBinding := { entry := w.setWidth 17, valid := w.getLsbD 17, budget := BitVec.ofNat 24 (bits w 40 24) }

/-- The firing state: the group, no port while none runs, and the ports consumed from; and what else the running firing keeps: core, context,
entry, residents. -/
def PortEngine.firingWords (e : PortEngine) : List Word :=
  match e.firing with
  | none => padTo 6 []
  | some f =>
    [word (maskOf 16 f.group.contains), word (maskOf 16 f.consumed.contains), word f.core, word f.ctx, f.entry.setWidth 64,
     word (maskOf 16 f.residents.contains)]

/-- The firing that words describe; changes of binding that wait for it are kept. -/
def PortEngine.firingOfWords (e : PortEngine) (ws : List Word) : Option Firing :=
  if wn ws 0 % 65536 = 0 then none
  else some { core := wn ws 2 % 4, ctx := wn ws 3, entry := (wd ws 4).setWidth 17, group := setBits 16 (wd ws 0)
              consumed := setBits 16 (wd ws 1), residents := setBits 16 (wd ws 5)
              rebinds := match e.firing with | some f => f.rebinds | none => [] }

/-- A sender in three words: tile, core, context. -/
def Sender.words (r : Sender) : List Word := [word r.tile, word r.core, word r.ctx]

/-- The sender that words describe. -/
def senderOf (ws : List Word) : Sender := ⟨wn ws 0, wn ws 1 % 4, wn ws 2 % 16⟩

/-- The mail state: handlers running; 64 reservations, each a flag, its deadline, the context held and the sender; 64 places of the refusal
list, each a flag, the sender and the tag that it named. -/
def State.mailWords (s : State) (t : Nat) : List Word :=
  let e := (s.tile t).port
  [word (s.mailsRunning t)] ++
    padTo 448 (e.reservations.flatMap fun r => [1, word r.deadline, word r.core, word r.ctx] ++ r.sender.words) ++
    padTo 320 (e.refusals.flatMap fun r => [1] ++ r.1.words ++ [r.2.setWidth 64])

/-- The port engine with its mail state rebuilt; what runs is what the contexts run. -/
def PortEngine.setMail (e : PortEngine) (ws : List Word) : PortEngine :=
  { e with
    reservations := (List.range 64).filterMap fun i =>
      let w := part (ws.drop 1) 7 i
      if wn w 0 = 0 then none else some { core := wn w 2 % 4, ctx := wn w 3 % 16, sender := senderOf (w.drop 4), deadline := wn w 1 }
    refusals := (List.range 64).filterMap fun i =>
      let w := part (ws.drop 449) 5 i
      if wn w 0 = 0 then none else some (senderOf (w.drop 1), (wd w 4).setWidth 24) }

/-- An optional tag as a number. -/
def tagWord (g : Option Tag) : Word := match g with | some g => word (g.toNat + 2 ^ 24) | none => 0

/-- The optional tag of a number. -/
def tagOfWord (w : Word) : Option Tag := if w.getLsbD 24 then some (w.setWidth 24) else none

/-- The identifier of a context's unanswered MAIL. -/
def Ctx.openMail (k : Ctx) : Option (BitVec 32) :=
  k.flights.findSome? fun f => match f.value with | .answer _ i => some i | _ => none

/-- A context's sender state: listing target, notice held, unanswered MAIL (a flag and its identifier), reply owed (a flag, the sender's tile
and core, the identifier); then the target that reserves for it, and the target that turned it away. -/
def State.senderWords (s : State) (u : Cur) : List Word :=
  let k := s.ctx u
  [tagWord k.sender.listed, tagWord k.sender.notice] ++
    (match k.openMail with | some i => [1, i.setWidth 64] | none => [0, 0]) ++
    (match s.replyOf u with | some r => [1, word r.tile, word r.sender, r.ident.setWidth 64] | none => [0, 0, 0, 0]) ++
    [tagWord k.sender.reserved, tagWord k.sender.turned]

/-- A context with its unanswered MAIL rebuilt: the answer of one that it did not have is for no register. -/
def Ctx.setOpenMail (k : Ctx) (core : Nat) (i : Option (BitVec 32)) : Ctx :=
  if k.openMail = i then k
  else
    let rest := k.flights.filter fun f => match f.value with | .answer _ _ => false | _ => true
    { k with flights := match i with
      | some i => rest ++ [{ dest := .g 0, value := .answer core i, epc := k.pc, len := 0 }]
      | none => rest }

/-- A context's sender state rebuilt. -/
def State.setSender (s : State) (u : Cur) (ws : List Word) : State :=
  let s := s.modSender u fun _ =>
    { listed := tagOfWord (wd ws 0), notice := tagOfWord (wd ws 1), reserved := tagOfWord (wd ws 8), turned := tagOfWord (wd ws 9) }
  let s := s.modCtx u fun k => k.setOpenMail u.core (if wn ws 2 = 0 then none else some ((wd ws 3).setWidth 32))
  s.modPort u.tile fun e =>
    let rest := e.replies.filter fun r => !(r.core == u.core && r.ctx == u.ctx)
    { e with replies := if wn ws 4 = 0 then rest else rest ++ [⟨u.core, u.ctx, wn ws 5, wn ws 6 % 4, (wd ws 7).setWidth 32, false⟩] }

/-- The context that a sender's unit names. -/
def ctxOfUnit (t u : Nat) : Cur := ⟨t, (u - 0x40) / 16, u % 16⟩

/-- The items of a port engine's unit. -/
def State.portItem (s : State) (t u i : Nat) : Option (List Word) :=
  let e := (s.tile t).port
  if u < 0x10 then
    (let d := s.inPort t u; if i = 0 then some [d.word] else if i = 1 then some (d.queueWords (s.tileTag t) u) else none)
  else if u < 0x20 then
    (let o := s.outPort t (u - 0x10); if i = 0 then some [o.word] else if i = 1 then some [word o.slots] else none)
  else if u = 0x20 then
    (if i = 0 then some e.desc.words
     else if i = 1 then some ((List.range 16).map fun n => (e.mails.get MailBinding.reset n).word)
     else if i = 2 then some e.firingWords
     else if i = 3 then some (s.mailWords t)
     else none)
  else if 0x40 ≤ u ∧ u < 0x80 ∧ i = 0 then some (s.senderWords (ctxOfUnit t u))
  else none

/-- The items of a port engine's unit rebuilt. -/
def State.setPortItem (s : State) (t u i : Nat) (ws : List Word) : State :=
  if u < 0x10 then s.modIn t u fun d => if i = 0 then d.ofWord (wd ws 0) else d.setQueue ws
  else if u < 0x20 then s.modOut t (u - 0x10) fun o => if i = 0 then o.ofWord (wd ws 0) else { o with slots := wn ws 0 % 16 }
  else if u = 0x20 then s.modPort t fun e =>
    if i = 0 then { e with desc := actorOfWords ws }
    else if i = 1 then { e with mails := (List.range 16).foldl (fun m n => m.put n (mailBindingOf (wd ws n))) e.mails }
    else if i = 2 then { e with firing := e.firingOfWords ws }
    else e.setMail ws
  else s.setSender (ctxOfUnit t u) ws

/-! ## The translation node (R371) -/

/-- Holders of pins and of open windows: copy channels, stream units, matrix queues. -/
def holderCount : Nat := 84

/-- A page's translation: virtual page, size (the level and 1; 0 where there is none), leaf entry, generation filled. -/
def Xentry.words (e : Xentry) : List Word := [word e.page, word (e.level + 1), e.entry, e.gen.setWidth 64]

/-- The translation that words describe. -/
def xentryOf (ws : List Word) : Option Xentry :=
  if wn ws 1 = 0 then none else some { page := wn ws 0, level := wn ws 1 - 1, entry := wd ws 2, gen := (wd ws 3).setWidth 32 }

/-- A held access: engine, channel or port, seq or identifier, virtual address, cause, the report's generation; and the core. -/
def HeldAccess.words (h : HeldAccess) : List Word :=
  [word h.engine, word h.chan, h.ident.setWidth 64, word h.va, word h.cause.code, h.gen.setWidth 64, word h.core]

/-- The held access that words describe: engines are numbered from 1 (R20). -/
def heldOf (ws : List Word) : Option HeldAccess :=
  if wn ws 0 = 0 then none
  else (causeOfCode (wn ws 4)).map fun c =>
    { engine := wn ws 0, chan := wn ws 1, ident := (wd ws 2).setWidth 32, va := wn ws 3, cause := c, gen := (wd ws 5).setWidth 32, core := wn ws 6 % 4 }

/-- The actors that have still to perform requests of a DREQ port. -/
def State.flushActors (s : State) (t p : Nat) : Nat :=
  let waits (a : Nat) : Bool :=
    (s.net.any fun m => match m with | .dramRequest b r => b == a && r.tile == t && r.port == p | _ => false) ||
    ((s.tile t).eng.xnode.dreqs.any fun r => r.port == p && r.rows.any fun w => w.entry.isSome && actorOf w.pa == a)
  maskOf 96 fun a => waits a && !(s.tile t).eng.xnode.flushed.contains (p, a)

/-- The items of a translation node. -/
def State.nodeItem (s : State) (t i : Nat) : Option (List Word) :=
  let x := (s.tile t).eng.xnode
  if i = 0 then some [word x.root, word (s.nodeKey t), word x.chase]
  else if i = 1 then some [x.rgen.setWidth 64]
  else if i = 2 then some (padTo 320 ((x.buf.mapIdx fun n e => e.words ++ [word n]).flatten))
  else if i = 3 then some ((List.range holderCount).flatMap fun h => match x.pins.find h with | some e => e.words | none => [0, 0, 0, 0])
  else if i = 4 then some (padTo 700 (x.held.flatMap HeldAccess.words))
  else if i = 5 then some (((List.range holderCount).map fun h => match (s.windows t).find h with | some m => word (m.mark + 2 ^ 63) | none => 0) ++
    [match x.sentMin with | some m => word (m + 2 ^ 63) | none => 0])
  else if i = 6 then some ((List.range 16).flatMap fun p => wordsOf 2 (s.flushActors t p))
  else none

/-- A mark that a word describes. -/
def markOf (w : Word) : Option Nat := if w.getLsbD 63 then some (bits w 0 63) else none

/-- The marks that a node holds for the windows now open, as they are written (R371). -/
def State.writtenMarks (s : State) (t : Nat) (ws : List Word) : Sparse LowMark :=
  (s.windows t).filterMap fun p => (markOf (wd ws p.1)).map fun m => (p.1, ⟨p.2.window, m⟩)

/-- The actors that a written flush state leaves out for each DREQ port; an actor that it adds has nothing to perform (R371). -/
def State.writtenFlush (s : State) (t : Nat) (ws : List Word) : List (Nat × Nat) :=
  (List.range 16).flatMap fun p =>
    ((List.range 96).filter fun a => (s.flushActors t p).testBit a && !(natOfWords (part ws 2 p)).testBit a).map fun a => (p, a)

/-- The node with an item rebuilt, its marks and its flush state as they come for the windows and the requests there are. -/
def Xnode.setItem (x : Xnode) (marks : Sparse LowMark) (flushed : List (Nat × Nat)) (i : Nat) (ws : List Word) : Xnode :=
  if i = 0 then { x with root := wn ws 0, key := (wd ws 1).setWidth 10, chase := wn ws 2 }
  else if i = 1 then { x with rgen := (wd ws 0).setWidth 32 }
  else if i = 2 then
    let entries := (List.range 64).filterMap fun n => (xentryOf (part ws 5 n)).map fun e => (wn (part ws 5 n) 4, e)
    { x with buf := (sortBy (·.1) entries).map Prod.snd }
  else if i = 3 then
    let put (m : Sparse Xentry) (h : Nat) : Sparse Xentry := match xentryOf (part ws 4 h) with | some e => m.put h e | none => m
    { x with pins := (List.range holderCount).foldl put [] }
  else if i = 4 then { x with held := (List.range 100).filterMap fun n => heldOf (part ws 7 n) }
  else if i = 5 then { x with marks := marks, sentMin := markOf (wd ws holderCount) }
  else if i = 6 then { x with flushed := x.flushed ++ flushed }
  else x

/-! ## The rebalancer (R386) -/

/-- The chase whose rebalancer a tile's unit names. -/
def State.chaseAt (s : State) (t : Nat) : Option Nat := (s.tile t).place.chase

/-- The rebalancer of a chase: its word; for each of its tiles, rising, the count of windows and the cool count; the migration's step, source,
destination and member tag, and its latched debts, a count and then for each its feeding port, what it owes and the seq it had reached. -/
def State.rebalWords (s : State) (n : Nat) : List Word :=
  let r := s.rebals.get Rebalancer.reset n
  let tiles := sortBy id (s.runTiles n)
  [r.word] ++ (tiles.flatMap fun t => [word (r.windows.get 0 t), word (r.cool.get 0 t)]) ++
    match r.migration with
    | none => padTo 3077 []
    | some m => padTo 3077 ([word m.step, word m.src, word m.dst, m.tag.setWidth 64, word m.debts.length] ++
        m.debts.flatMap fun d => [word d.1, word d.2, (m.sent.get 0 d.1).setWidth 64])

/-- The rebalancer rebuilt. -/
def State.setRebal (s : State) (n : Nat) (ws : List Word) : State :=
  let r := s.rebals.get Rebalancer.reset n
  let tiles := sortBy id (s.runTiles n)
  let fill (k : Nat) : Sparse Nat := (tiles.mapIdx fun i t => (t, wn ws (1 + 2 * i + k))).foldl (fun (m : Sparse Nat) p => m.set 0 p.1 p.2) []
  let ms := ws.drop (1 + 2 * tiles.length)
  let debts : List (List Word) := (List.range (min 1024 (wn ms 4))).map fun i => part (ms.drop 5) 3 i
  let migration : Option Migration := if wn ms 0 = 0 then none
    else some { step := wn ms 0, src := wn ms 1, dst := wn ms 2, tag := (wd ms 3).setWidth 24
                debts := debts.foldl (fun (m : Sparse Nat) w => m.set 0 (wn w 0) (wn w 1)) []
                sent := debts.foldl (fun (m : Sparse (BitVec 32)) w => m.set 0 (wn w 0) ((wd w 2).setWidth 32)) []
                seams := match r.migration with | some m => m.seams | none => []
                by_ := match r.migration with | some m => m.by_ | none => none }
  { s with rebals := s.rebals.put n { word := wd ws 0, windows := fill 0, cool := fill 1, migration := migration, seen := r.seen } }

/-! ## The galley service (R388, R405) -/

/-- A galley's two words of the island item. -/
def GalleyEntry.words (e : GalleyEntry) : List Word :=
  [word (e.en.toNat + 2 * e.pending.toNat + 4 * e.mapped.toNat + 8 * e.slot.toNat + 2 ^ 10 * e.zone.toNat + 2 ^ 12 * e.prio.toNat
    + 2 ^ 16 * e.cap.toNat + 2 ^ 21 * e.age.toNat), word (e.head.toNat + 2 ^ 32 * e.tail.toNat)]

/-- A galley's entry with one of its words written (R388). -/
def GalleyEntry.write (e : GalleyEntry) (odd : Bool) (w : Word) : GalleyEntry :=
  if odd then (if e.mapped then e else { e with head := w.setWidth 32, tail := (w >>> 32).setWidth 32 })
  else { e with
    en := w.getLsbD 0, prio := BitVec.ofNat 4 (bits w 12 4), cap := BitVec.ofNat 5 (bits w 16 5), age := BitVec.ofNat 8 (bits w 21 8)
    zone := if e.mapped then e.zone else BitVec.ofNat 2 (bits w 10 2) }

/-- A word of the galley service's configuration (R405). -/
def GalleyService.config (y : GalleyService) (w : Nat) : Word :=
  if w = 0 then word y.tableBase
  else if w ≤ 4 then (y.serviceTags.get 0 (w - 1)).setWidth 64
  else word (y.snapBases.get 0 (w - 5))

/-- The configuration with a word written; a service tile changes only while no galley of its zone is mapped (R387). -/
def GalleyService.setConfig (y : GalleyService) (w : Nat) (v : Word) : GalleyService :=
  if w = 0 then { y with tableBase := bits v 7 37 * 128 }
  else if w ≤ 4 then
    if y.entries.any fun e => e.2.mapped && e.2.zone.toNat == w - 1 then y
    else { y with serviceTags := y.serviceTags.put (w - 1) (v.setWidth 24) }
  else { y with snapBases := y.snapBases.put (w - 5) (bits v 0 20) }

/-- A slot's three words (R388). -/
def State.slotWords (s : State) (r : Nat) : List Word :=
  let k := s.slotAt r
  if !k.mapped then [0, word (2 ^ 30 * k.stopped.toNat), 0]
  else
    let e := s.galley k.galley
    [word (k.ring % 2 ^ 57), word (k.rsize + 2 ^ 5 * k.chase + 2 ^ 17 * k.galley + 2 ^ 29 + 2 ^ 30 * (k.stopped || k.fault.isSome).toNat
      + 2 ^ 31 * (k.fault.isSome || k.pendRec.isSome).toNat), word (e.head.toNat + 2 ^ 32 * e.tail.toNat)]

/-- A word of an item of the galley service. -/
def State.serviceWord (s : State) (u i w : Nat) : Word :=
  if i ≠ 0 then 0
  else if u < 0x80 then wd (s.slotWords u) w
  else if u = 0x80 then (if w ≤ 8 then s.galleys.config w else 0)
  else if u = 0x81 ∧ w < 8192 then wd (s.ageGalleys.galley (w / 2)).words (w % 2)
  else 0

/-- A word of the service's configuration or island written (R404). -/
def State.setServiceWord (s : State) (u i w : Nat) (v : Word) : State :=
  if i ≠ 0 then s
  else if u = 0x80 ∧ w ≤ 8 then s.modGalleys (·.setConfig w v)
  else if u = 0x81 ∧ w < 8192 then s.ageGalleys.modGalley (w / 2) (·.write (w % 2 == 1) v)
  else s

/-! ## Ethernet ports and links (R370, R467, R468, R472, R475) -/

/-- An Ethernet port. -/
def State.eth (s : State) (p : Nat) : EthPort := s.plat.eth.get EthPort.reset p

/-- The state with an Ethernet port changed. -/
def State.modEth (s : State) (p : Nat) (f : EthPort → EthPort) : State :=
  { s with plat := { s.plat with eth := s.plat.eth.put p (f (s.eth p)) } }

/-- A session of an Ethernet port. -/
def EthPort.session (e : EthPort) (n : Nat) : Session := e.sessions.get Session.reset n

/-- A word of an item of an Ethernet port, a link or the route tables. -/
def State.ethWord (s : State) (u i w : Nat) : Word :=
  if u < 4 then
    (let e := s.eth u
     if i = 0 then (if w < 2048 then e.rings.get 0 w else 0)
     else if i = 1 then (if w < 6 then e.counters.get 0 w else 0)
     else if i = 2 then (if w < 256 then (e.session w).word else 0)
     else if i = 3 then (if w = 0 then e.config.get 0 0 else 0)
     else 0)
  else if 0x10 ≤ u ∧ u < 0x20 ∧ i = 0 then
    (let k := s.link (u - 0x10)
     wd [word k.lanes, word k.spareFree.toNat, k.rxNext.setWidth 64, k.txNext.setWidth 64] w)
  else if u = 0x20 then
    (if i = 0 then (if w < 1024 then word (s.plat.groups.get 0xFF w) else 0)
     else if i = 1 then (if w < 512 then word (s.plat.members.get 0xFF w) else 0)
     else 0)
  else 0

/-- The fields of a ring's word that are written (R468). -/
def ringWord (w : Nat) (v : Word) : Word :=
  match w % 8 with
  | 0 => v &&& word (2 ^ 60 - 1)
  | 2 => v &&& word (2 ^ 30 - 1)
  | 3 => v &&& ~~~(word (7 * 2 ^ 13))
  | _ => v

/-- A link changed, and what waits for it sent as it takes it (R473, R475). -/
def State.drainLink (s : State) (l : Nat) (f : Link → Link) : State :=
  s.modLink l fun k => let k := f k; if s.linkHeld l then k else Link.drainWaiting k.waiting.length k

/-- A word of an item of an Ethernet port, a link or the route tables written (R404). -/
def State.setEthWord (s : State) (u i w : Nat) (v : Word) : State :=
  if u < 4 then
    s.modEth u fun e =>
      if i = 0 ∧ w < 2048 then { e with rings := e.rings.set 0 w (ringWord w v) }
      else if i = 1 ∧ w < 6 then { e with counters := e.counters.set 0 w v }
      else if i = 2 ∧ 0 < w ∧ w < 256 then
        { e with sessions := e.sessions.put w { e.session w with word := v &&& 0x1FFF } }
      else if i = 3 ∧ w = 0 then { e with config := e.config.set 0 0 (v &&& 1) }
      else e
  else if 0x10 ≤ u ∧ u < 0x20 ∧ i = 0 then
    s.drainLink (u - 0x10) (fun k =>
      if w = 0 then { k with lanes := v.toNat % 16 }
      else if w = 1 then { k with spareFree := v.getLsbD 0 }
      else if w = 2 then { k with rxNext := v.setWidth 12 }
      else if w = 3 then { k with txNext := v.setWidth 12 }
      else k)
  else if u = 0x20 ∧ i = 0 ∧ w < 1024 then { s with plat := { s.plat with groups := s.plat.groups.set 0xFF w (v.toNat % 256) } }
  else if u = 0x20 ∧ i = 1 ∧ w < 512 then { s with plat := { s.plat with members := s.plat.members.set 0xFF w (v.toNat % 256) } }
  else s

/-! ## Items of every engine (R404) -/

/-- The words of an item of a unit that is written while it is held; none where the selector names no such item. -/
def State.itemWords (s : State) (t e u i : Nat) : Option (List Word) :=
  match e with
  | 1 =>
    if u < 8 then s.chanItem t u i
    else if 0x40 ≤ u ∧ u < 0x80 then (if i = 0 then some (s.unitWords t ((u - 0x40) / 16) (u % 16)) else none)
    else if 0x80 ≤ u ∧ u < 0x8D ∧ i = 0 then some ((s.tile t).eng.slotWords (u - 0x80))
    else none
  | 2 =>
    if 4 ≤ u then none
    else if i = 0 then some (s.walker t u).stateWords
    else if i = 1 then some (padTo 32 ((s.walker t u).open_.flatMap OpenWalk.words))
    else none
  | 3 => if u < 8 ∧ i = 0 then some (s.quire t u).words else none
  | 4 => if u < 4 ∧ i = 0 then some (s.core t u).spa.words else none
  | 5 => if u < 4 then s.mqItem t u i else if u = 0x10 ∧ i = 0 then some (s.tile t).eng.arbiter.words else none
  | 6 => s.portItem t u i
  | 7 => if u = 0 then s.nodeItem t i else none
  | 8 => if u = 0 ∧ i = 0 then (s.chaseAt t).map s.rebalWords else none
  | _ => none

/-- The state with an item rebuilt from its words; copy channels and matrix queues are rebuilt whole. -/
def State.setItemWords (s : State) (t e u i : Nat) (ws : List Word) : State :=
  match e with
  | 1 =>
    if u < 0x80 then s.setUnit t ((u - 0x40) / 16) (u % 16) ws
    else s.modEng t fun e => e.setSlots (u - 0x80) (bytesOfNat 32 (natOfWords ws))
  | 2 => s.modWalker t u fun w => if i = 0 then { w with piece := s.pieceOf t u ws } else { w with open_ := openWalksOf ws }
  | 3 => s.modQuire t u fun _ => quireOf ws
  | 4 => s.modCore t u fun k => { k with spa := spaOf ws }
  | 5 => s.modArbiter t (·.ofWords ws)
  | 6 => s.setPortItem t u i ws
  | 7 => s.modXnode t (·.setItem (s.writtenMarks t ws) (s.writtenFlush t ws) i ws)
  | 8 => match s.chaseAt t with | some n => s.setRebal n ws | none => s
  | _ => s

end Sys2Proof.Machine
end

