-- ==== Sys2Proof/Machine/Ethernet.lean ====
section
/-! DEFINITION. Ethernet ports and Alason links (chapter 19 of spec/): Bileel frames, sessions, ingest rings, flow control, flits and
lanes (R462 to R476). The commands of ops 5 and 6 stand with the root of trust. -/

namespace Sys2Proof.Machine

/-! ## Frames to the host (R462 to R467) -/

/-- A port's counter counts one more, saturating (R404: 0 received, 1 FCS errors, 2 oversize, 3 unmatched, 4 malformed Bileel, 5 pauses). -/
def EthPort.count (e : EthPort) (n : Nat) : EthPort := { e with counters := e.counters.set 0 n (e.counters.get 0 n + 1) }

/-- A received pause holds transmission on a priority (R462). -/
def State.sendingPaused (s : State) (p prio : Nat) : Bool := decide (s.now < (s.eth p).pausedTo.get 0 prio)

/-- The frames that a port holds back go to the host. -/
def State.flush (s : State) (p : Nat) : State :=
  let held := (s.eth p).outbox
  let s := s.modEth p fun e => { e with outbox := [] }
  { s with plat := { s.plat with sent := held.reverse ++ s.plat.sent } }

/-- The state with a frame on its way to the host; a pause on priority 0 holds it at its port (R462). -/
def State.emit (s : State) (f : FrameOut) : State :=
  if s.sendingPaused f.port 0 then s.modEth f.port fun e => { e with outbox := e.outbox ++ [f] }
  else
    let s := s.flush f.port
    { s with plat := { s.plat with sent := f :: s.plat.sent } }

/-- The highest seq received in order on a session (R463, R466). -/
def Session.lastSeq (k : Session) : BitVec 32 := k.expect - 1

/-- The device sends a frame on a session; an ACK-only frame takes no seq. -/
def State.sendFrame (s : State) (p n op : Nat) (addr : Word) (body : List Byte) : State :=
  let k := (s.eth p).session n
  let s := if op = 7 then s else s.modEth p fun e => { e with sessions := e.sessions.put n { k with seq := k.seq + 1 } }
  s.emit { port := p, session := n, op := op, seq := k.seq, ack := k.lastSeq, addr := addr, body := body }

/-- An ACK-only frame (R464, R466). -/
def State.sendAck (s : State) (p n : Nat) : State := s.sendFrame p n 7 0 []

/-- A frame whose header is malformed (R463). -/
def frameMalformed (f : Frame) : Bool :=
  f.version != 1 || f.zero != 0 || f.length != f.body.length || decide (8192 < f.length) || decide (256 ≤ f.session)

/-- Session 0 carries ops 5 to 7; an enabled session carries ops 1 to 4 and 7 (R467). -/
def State.carries (s : State) (p n op : Nat) : Bool :=
  if n = 0 then decide (5 ≤ op) && decide (op ≤ 7)
  else ((s.eth p).session n).word.getLsbD 12 && ((decide (1 ≤ op) && decide (op ≤ 4)) || op == 7)

/-- The chase that a session is bound to (R467). -/
def State.sessionChase (s : State) (p n : Nat) : Nat := bits ((s.eth p).session n).word 0 12

/-- What becomes of a frame before it is performed (R463, R466, R467). -/
inductive Receipt where
  /-- it is dropped and counted -/
  | dropped
  /-- it is out of order: discarded, and the last frame accepted is named again -/
  | discarded
  | accepted
deriving DecidableEq

/-- The receipt of a frame on a port. -/
def State.receipt (s : State) (p op : Nat) (f : Frame) : Receipt :=
  if !(s.eth p).linkUp || s.moduleHeld 0xD p || frameMalformed f || !s.carries p f.session op then .dropped
  else if op = 7 then .accepted
  else if f.seq = ((s.eth p).session f.session).expect then .accepted
  else .discarded

/-- The acknowledgement that a frame carries is heard, and its seq accepted. -/
def State.acceptFrame (s : State) (p op : Nat) (f : Frame) : State :=
  s.modEth p fun e =>
    let k := e.session f.session
    let e := e.count 0
    { e with sessions := e.sessions.put f.session { k with acked := f.ack, expect := if op = 7 then k.expect else k.expect + 1 } }

/-- A frame that arrives (R463, R466, R467): `perform` acts on the state in which it has been accepted. -/
def State.onFrame (s : State) (p op : Nat) (f : Frame) (perform : State → State) : State :=
  if 4 ≤ p ∨ f.op ≠ op then s
  else match s.receipt p op f with
    | .dropped => s.modEth p fun e => (e.count 0).count 4
    | .discarded => (s.modEth p fun e => e.count 0).sendAck p f.session
    | .accepted => perform (s.acceptFrame p op f)

/-- The tile of a port's front-end zone, through which its frames reach the module (R387). -/
def State.portTile (s : State) (p : Nat) : Nat := (s.serviceTile p).getD 0

/-- The fault report of a frame that cannot be translated (R364). -/
def State.reportFrame (s : State) (p : Nat) (f : Frame) (e : EngFault) : State :=
  s.modTile (s.portTile p) fun y => { y with place := { y.place with
    tasks := y.place.tasks ++ [faultReport e.va e.cause 0x0D p 3 f.seq.toNat 0] } }

/-- BILEEL_WRITE (R464, R467): the body goes to D through the session's chase. A frame that cannot be translated is not accepted, and the
micro-kernel gets its report: the host sends it again. -/
def execBileelWrite (port : Nat) (frame : Frame) (s : State) : Host.Outcome State Fault Refusal :=
  let r := (s.onFrame port 1 frame id)
  let ccb := s.ccbOf (s.sessionChase port frame.session)
  .next (if 4 ≤ port ∨ frame.op ≠ 1 ∨ s.receipt port 1 frame ≠ .accepted then r
    else match r.chaseWrite (s.portTile port) 3 ccb frame.addr.toNat frame.length (natOfBytes frame.body) with
      | (_, .error e) => s.reportFrame port frame e
      | (s', .ok _) => s'.sendAck port frame.session)

/-- BILEEL_READ (R464, R467): the answer is a frame of the same op and address. -/
def execBileelRead (port : Nat) (frame : Frame) (s : State) : Host.Outcome State Fault Refusal :=
  let f := { frame with length := frame.body.length }
  let r := s.onFrame port 2 f id
  let chase := s.sessionChase port frame.session
  .next (if 4 ≤ port ∨ frame.op ≠ 2 ∨ s.receipt port 2 f ≠ .accepted then r
    else if 8192 < frame.length then s.modEth port fun e => (e.count 0).count 4
    else match r.chaseRead (s.portTile port) (s.ccbOf chase) frame.addr.toNat frame.length with
      | (_, .error e) => if e.cause = .dramPoison then r.strikeChase chase else s.reportFrame port frame e
      | (s', .ok v) => s'.sendFrame port frame.session 2 frame.addr (bytesOfNat frame.length v))

/-- BILEEL_KICK (R391, R466, R467): every earlier WRITE of the session has been performed, and the aperture takes the kick for the island. A
kick of a galley of another chase is dropped. -/
def execBileelKick (port : Nat) (frame : Frame) (s : State) : Host.Outcome State Fault Refusal :=
  .next (s.onFrame port 3 frame fun s =>
    let g := bits frame.addr 0 12
    let chase := s.sessionChase port frame.session
    let s := s.sendAck port frame.session
    match s.tableRead (s.blockOf g + 4) 2 with
    | .ok c =>
      if c = chase then
        (s.modGalley g fun e => { e with via := some (port, frame.session) }).modGalleys fun y =>
          { y with kicks := y.kicks ++ [(g, BitVec.ofNat 32 (bits frame.addr 32 32))] }
      else s.modEth port fun e => e.count 4
    | .error _ => s.modEth port fun e => e.count 4)

/-- BILEEL_ACK (R464, R466). -/
def execBileelAck (port : Nat) (frame : Frame) (s : State) : Host.Outcome State Fault Refusal := .next (s.onFrame port 7 frame id)

/-- A command head and what follows it (R465). -/
def commandBody (code status tag : Nat) (rest : List Byte) : List Byte := bytesOfNat 2 code ++ bytesOfNat 2 status ++ bytesOfNat 4 tag ++ rest

/-- A completion message of a galley, on the session through which it was last kicked (R465, R467). -/
def State.completion (s : State) (g : Nat) (status : BitVec 16) (seq index : BitVec 32) : State :=
  match (s.galley g).via with
  | some (p, n) => s.sendFrame p n 4 0 (commandBody 0 0 0 (bytesOfNat 2 (g % 4096) ++ bytesOfNat 2 status.toNat ++ bytesOfNat 4 seq.toNat ++
      bytesOfNat 4 index.toNat ++ bytesOfNat 4 0))
  | none => s

/-- COMPLETION (R465). -/
def execCompletion (galley : Nat) (status : BitVec 16) (seq index : BitVec 32) (s : State) : Host.Outcome State Fault Refusal :=
  .next (s.completion (galley % 4096) status seq index)

/-! ## Flow control (R462) -/

/-- Reference time of a pause of some quanta: 512 bit times each, at 800 Gb/s (R462). -/
def quantaNs (q : Nat) : Nat := (64 * q + 99) / 100

/-- PFC_RECEIVED (R462): each enabled priority is paused for its quanta, or resumes with none. -/
def execPfcReceived (port : Nat) (pause : BitVec 8) (quanta : List Nat) (s : State) : Host.Outcome State Fault Refusal :=
  let set (m : Sparse Nat) (i : Nat) : Sparse Nat :=
    if pause.getLsbD i then m.set 0 i (if quanta.getD i 0 = 0 then 0 else s.now + quantaNs (quanta.getD i 0)) else m
  let s := s.modEth port fun e => { e.count 0 with pausedTo := (List.range 8).foldl set e.pausedTo }
  .next (if s.sendingPaused port 0 then s else s.flush port)

/-- DROPPED_FRAME (R462): an oversize frame, or one with a bad FCS. -/
def execDroppedFrame (port length : Nat) (s : State) : Host.Outcome State Fault Refusal :=
  .next (s.modEth port fun e => (e.count 0).count (if 9216 < length then 2 else 1))

/-! ## Ingest (R468 to R471) -/

/-- Word k of an ingest ring of a port (R468). -/
def State.ringW (s : State) (p r k : Nat) : Word := (s.eth p).rings.get 0 (8 * r + k)

/-- The state with a word of a ring written by the port. -/
def State.setRingW (s : State) (p r k : Nat) (v : Word) : State := s.modEth p fun e => { e with rings := e.rings.set 0 (8 * r + k) v }

/-- A ring takes a frame (R468). -/
def State.ringMatches (s : State) (p : Nat) (f : EthFrame) (r : Nat) : Bool :=
  let w2 := s.ringW p r 2
  let w3 := s.ringW p r 3
  w2.getLsbD 29 && bits w2 26 3 == f.prio.toNat && bits w3 16 48 == f.mac.toNat &&
    (w3.getLsbD 12 || (match f.vlan with | some v => v.toNat == bits w3 0 12 | none => false))

/-- The size and the free space of a ring (R468, R470). -/
def State.ringSize (s : State) (p r : Nat) : Nat := bits (s.ringW p r 1) 0 32
def State.ringFree (s : State) (p r : Nat) : Nat :=
  let n := s.ringSize p r
  if n = 0 then 0 else ((s.ringW p r 5).toNat + 2 * n - (s.ringW p r 4).toNat % n - 1) % n

/-- Headroom of a ring. -/
def State.ringHeadroom (s : State) (p r : Nat) : Nat := bits (s.ringW p r 1) 32 32

/-- The tile that holds a ring's notice tag. -/
def State.ringTile (s : State) (p r : Nat) : Option Nat := s.tileOf ((s.ringW p r 2).setWidth 24)

/-- The notice core of a ring. -/
def State.ringCore (s : State) (p r : Nat) : Nat := bits (s.ringW p r 2) 24 2

/-- Bytes written at an offset of a ring: in T of the notice tile, or in D through the ring's chase (R468). -/
def State.ringWrite (s : State) (p r off : Nat) (bytes : List Byte) : State × Except EngFault Unit :=
  let w := s.ringW p r 0
  let a := bits w 0 57 + off
  let t := (s.ringTile p r).getD 0
  if bits w 57 3 = 4 then
    s.chaseWrite t (s.ringCore p r) (s.ccbOf (s.ringW p r 7).toNat) a bytes.length (natOfBytes bytes)
  else if a + bytes.length ≤ 0x100000 then (s.writeLocal t 0 .t noKey a bytes.length (natOfBytes bytes), .ok ())
  else (s, .error ⟨a, .spaceRange⟩)

/-- A record of a frame (R469): its head, the frame, and zeros to a multiple of 128 bytes. -/
def ingestRecord (p time : Nat) (bytes : List Byte) : List Byte :=
  let n := 16 + bytes.length
  bytesOfNat 16 (bytes.length % 65536 + 65536 * p + 2 ^ 64 * (time % 2 ^ 48)) ++ bytes ++ List.replicate ((128 - n % 128) % 128) 0

/-- Bytes of the gap that a record leaves at the ring's end, where it would cross it (R469). -/
def State.ringGap (s : State) (p r n : Nat) : Nat :=
  let size := s.ringSize p r
  let tail := (s.ringW p r 4).toNat
  if size < tail + n then size - tail else 0

/-- A record fits in a ring's free space (R470). -/
def State.ringFits (s : State) (p r n : Nat) : Bool :=
  decide (0 < s.ringSize p r) && !(s.eth p).stuck.any (·.1 == r) && decide (s.ringGap p r n + n ≤ s.ringFree p r)

/-- A record is written and then the tail (R469); or the fault that keeps it from being written. -/
def State.writeRecord (s : State) (p r : Nat) (rec_ : List Byte) : State × Option EngFault :=
  let n := rec_.length
  let gap := s.ringGap p r n
  let tail := (s.ringW p r 4).toNat
  let at_ := if gap = 0 then tail else 0
  let first := if gap = 0 then (s, .ok ()) else s.ringWrite p r tail (bytesOfNat 16 (65536 * p) ++ List.replicate (min gap 128 - 16) 0)
  match first with
  | (_, .error f) => (s, some f)
  | (s', .ok _) =>
    match s'.ringWrite p r at_ rec_ with
    | (_, .error f) => (s, some f)
    | (s', .ok _) => (s'.setRingW p r 4 (word ((at_ + n) % s.ringSize p r)), none)

/-- A port sends a pause on a ring's priority while its free space is below the headroom (R470). -/
def State.pauseRing (s : State) (p r : Nat) : State :=
  if s.ringFree p r < s.ringHeadroom p r && ((s.eth p).pausing.find r).isNone then
    s.modEth p fun e => { e.count 5 with pausing := e.pausing.put r s.now }
  else s

/-- A frame that does not fit is dropped and counted; the first of a period raises INGEST_OVERRUN (R470). -/
def State.dropIngest (s : State) (p r : Nat) : State :=
  let n := min (2 ^ 32 - 1) ((s.ringW p r 6).toNat + 1)
  let s := s.setRingW p r 6 (word n)
  if (s.eth p).dropping.contains r then s
  else
    let s := s.modEth p fun e => { e with dropping := r :: e.dropping }
    match s.ringTile p r with
    | some t => s.notify t (s.ringCore p r) .ingestOverrun (word (p + 4 * r + 2 ^ 32 * n))
    | none => s

/-- INGEST_FRAME (R468 to R470). A record that meets a fault stays with the port until INGEST_RING_FAULT holds the ring. -/
def execIngestFrame (port : Nat) (frame : EthFrame) (s : State) : Host.Outcome State Fault Refusal :=
  if 4 ≤ port ∨ !(s.eth port).linkUp ∨ s.moduleHeld 0xD port then .next s
  else
    let s := s.modEth port (·.count 0)
    if 9216 < frame.bytes.length + 4 then .next (s.modEth port (·.count 2))
    else match (List.range 256).find? (s.ringMatches port frame) with
      | none => .next (s.modEth port (·.count 3))
      | some r =>
        let rec_ := ingestRecord port frame.time.toNat frame.bytes
        if !s.ringFits port r rec_.length then .next (s.dropIngest port r)
        else match s.writeRecord port r rec_ with
          | (_, some _) => .next (s.modEth port fun e => { e with stuck := e.stuck.put r rec_ })
          | (s', none) => .next ((s'.modEth port fun e => { e with dropping := e.dropping.filter (· != r) }).pauseRing port r)

/-- The record that a fault keeps with a port is tried again: it is written, or the fault that still keeps it. -/
def State.retryRecord (s : State) (p r : Nat) : State × Option EngFault :=
  match (s.eth p).stuck.find r with
  | none => (s, none)
  | some rec_ =>
    match s.writeRecord p r rec_ with
    | (_, some f) => (s, some f)
    | (s', none) => ((s'.modEth p fun e => { e with stuck := e.stuck.erase r }).pauseRing p r, none)

/-- INGEST_RING_FAULT (R471): the ring is held and the micro-kernel gets the report; a poisoned token rolls the ring's chase back. -/
def execIngestRingFault (port ring : Nat) (s : State) : Host.Outcome State Fault Refusal :=
  if (s.eth port).held.any (·.1 == ring) then .next s
  else match s.retryRecord port ring with
    | (s', none) => .next s'
    | (_, some f) =>
      let s := s.modEth port fun e => { e with held := e.held ++ [(ring, f.va, f.cause)] }
      .next (if f.cause = .dramPoison then s.strikeChase (s.ringW port ring 7).toNat
        else match s.ringTile port ring with
          | some t => s.modTile t fun y => { y with place := { y.place with
              tasks := y.place.tasks ++ [faultReport f.va f.cause 0x0D port (s.ringCore port ring) ring 0] } }
          | none => s)

/-- The micro-kernel resumes or abandons the oldest held ring of a port (R405, R471). -/
def State.resumeRing (s : State) (p : Nat) : State :=
  match (s.eth p).held with
  | [] => s
  | (r, _) :: _ => ((s.modEth p fun e => { e with held := e.held.tail }).retryRecord p r).1
def State.abandonRing (s : State) (p : Nat) : State :=
  match (s.eth p).held with
  | [] => s
  | (r, _) :: _ => (s.modEth p fun e => { e with held := e.held.tail, stuck := e.stuck.erase r }).dropIngest p r

/-- PAUSE_RESUME (R470). -/
def execPauseResume (port ring : Nat) (s : State) : Host.Outcome State Fault Refusal :=
  .next (if ((s.eth port).pausing.find ring).isSome && decide (2 * s.ringHeadroom port ring ≤ s.ringFree port ring) then
      s.modEth port fun e => { e with pausing := e.pausing.erase ring }
    else s)

/-- PAUSE_RENEW (R470). -/
def execPauseRenew (port ring : Nat) (s : State) : Host.Outcome State Fault Refusal :=
  .next (if ((s.eth port).pausing.find ring).isSome && decide (s.ringFree port ring < s.ringHeadroom port ring) then
      s.modEth port fun e => { e.count 5 with pausing := e.pausing.put ring s.now }
    else s)

/-! ## Alason links (R472 to R475) -/

/-- The tag of an external endpoint (R15): ports 0 to 3, then links. -/
def endpointTag (n : Nat) : Tag := Tag.make 4 n 0

/-- The tile that holds a link's endpoint tag (R475). -/
def State.linkTile (s : State) (l : Nat) : Option Nat := s.tags.find (endpointTag (4 + l)).toNat

/-- A whole token that a link has accepted goes to its arc's consumer, a slot return or a seam's acknowledgement to its output port (R316, R319,
R379, R474); a token of another type stays with the link. -/
def State.linkToken (s : State) (l : Nat) (bytes : List Byte) : State :=
  let h := natOfBytes (bytes.take 16)
  let payload : Token := BitVec.ofNat 1024 (natOfBytes ((bytes.drop 16).take 128))
  let kind : Option TokKind := match h / 2 ^ 30 % 16 with
    | 0 => some .data | 1 => some (.colophon (h / 2 ^ 34 % 4)) | 2 => some (.proof (payload.setWidth 32)) | 3 => some .probe | _ => none
  let dst : Tag := BitVec.ofNat 24 h
  let port := h / 2 ^ 24 % 16
  let stag : Tag := BitVec.ofNat 24 (h / 2 ^ 64)
  let sport := h / 2 ^ 88 % 16
  if h / 2 ^ 30 % 16 = 8 then s.post (.slot (s.placeOf dst) dst port (BitVec.ofNat 32 (h / 2 ^ 96)) 0xFFFFFF)
  else if h / 2 ^ 30 % 16 = 12 ∧ h / 2 ^ 28 % 4 = arcClass then s.post (.seam (s.placeOf dst) dst port stag sport (some l))
  else if h / 2 ^ 30 % 16 = 12 ∧ h / 2 ^ 28 % 4 = 0 then s.post (.seamAck dst port)
  else match kind with
  | some k => s.post (.token (s.placeOf dst) dst port
      { kind := k, payload := payload, len := h / 2 ^ 36 % 32, stag := stag, sport := sport
        seq := BitVec.ofNat 32 (h / 2 ^ 96), status := 0, row := 0, dreq := none, via := some l })
  | none => s.modLink l fun k => { k with inbox := k.inbox ++ [bytes] }

/-- A flit lies behind the one that a receiver expects: a duplicate (R473). -/
def isDuplicate (seq next : BitVec 12) : Bool := let d := (next - seq).toNat; decide (1 ≤ d) && decide (d ≤ 2048)

/-- FLIT_RECEIVE (R473): a flit in sequence is accepted, and the third of a token completes it; else a NAK names the first flit missing. -/
def execFlitReceive (link : Nat) (flit : FlitIn) (s : State) : Host.Outcome State Fault Refusal :=
  let k := s.link link
  if 16 ≤ link ∨ !s.linkServes link then .next s
  else if flit.crcOk && isDuplicate flit.seq k.rxNext then .next s
  else if !flit.crcOk || flit.seq != k.rxNext then .next (s.modLink link fun k => { k with nak := some k.rxNext })
  else
    let bytes := k.partialTok ++ flit.payload
    let whole := decide (168 ≤ bytes.length)
    let s := s.modLink link fun k => { k with
      rxNext := k.rxNext + 1, nak := none, partialTok := if whole then [] else bytes }
    .next (if whole then s.linkToken link (bytes.take 144) else s)

/-- NAK_RETRANSMIT (R473): the sender resends from the named flit, in order; the flits before it have been accepted. One that names the next
flit to be sent accepts them all. -/
def execNakRetransmit (link : Nat) (first : BitVec 12) (s : State) : Host.Outcome State Fault Refusal :=
  .next (s.modLink link fun k =>
    let again := k.retry.dropWhile (·.seq != first)
    if again.isEmpty && first != k.txNext then k
    else if s.linkHeld link then { k with retry := again, wire := k.wire ++ again }
    else Link.drainWaiting k.waiting.length { k with retry := again, wire := k.wire ++ again })

/-- LANE_FAILURE (R475): the spare lane is taken, or the link sheds to half its width and resends what is not acknowledged. -/
def execLaneFailure (link lane : Nat) (s : State) : Host.Outcome State Fault Refusal :=
  let k := s.link link
  if 16 ≤ link ∨ 9 ≤ lane ∨ k.failed.contains lane ∨ k.lanes = 0 then .next s
  else
    let at_ := (s.linkTile link).getD 0
    let s := s.modLink link fun k => { k with failed := lane :: k.failed }
    if k.spareFree then
      let rec_ := bytesOfNat 8 s.now ++ bytesOfNat 8 3 ++ bytesOfNat 8 link ++ bytesOfNat 8 (tileName at_)
      let s := s.modLink link fun k => { k with spareFree := false }
      let s : State := { s with plat := { s.plat with spareLog := s.plat.spareLog ++ [rec_] } }
      .next (match s.linkTile link with | some t => s.notify t 0 .spareSwap (word (3 + 65536 * link)) | none => s)
    else
      let n := if k.lanes = 8 then 4 else if k.lanes = 4 then 2 else 0
      let s := s.modLink link fun k => { k with lanes := n, wire := if n = 0 then [] else k.retry }
      .next (match s.linkTile link with | some t => s.notify t 0 .linkDegraded (word (link + 16 * n)) | none => s)

end Sys2Proof.Machine
end

