-- ==== Sys2Proof/Machine/Forme.lean ====
section
/-! DEFINITION. Imposition (chapter 16 of spec/): the forme file, choosing a placement, the shadow planes, drains, the swap, and the
FORME and TAGBIND instructions (R413 to R424). -/

namespace Sys2Proof.Machine

/-! ## Chases at work (R418) -/

/-- The context that ordered a chase's work is still there. -/
def State.ownerLives (s : State) (o : Nat × Nat × Nat) : Bool := (s.ctx ⟨o.1, o.2.1, o.2.2⟩).status != .free

/-- A load, drain, swap, shrink, migration or rollback of a chase is in progress for another than a context (R418, status 4). A drain
whose context has gone counts no longer. -/
def State.chaseBusy (s : State) (n : Nat) (u : Cur) : Bool :=
  let c := s.chase n
  s.migrating n || (c.work != .none && (match c.by_ with
    | some o => s.ownerLives o && o != (u.tile, u.core, u.ctx)
    | none => true))

/-- The trap of an access through a chase that fails (R140, R194, R413). -/
def State.chaseTrap (s : State) (ccb : Nat) (f : EngFault) (write : Bool) : Act :=
  .trap f.cause (if f.cause = .keySlot then
      (match s.chaseWalk ccb f.va write with
        | .ok e => keySlotInfo ((s.ccbKey ccb).getD 0) (actorOf (e.pa f.va))
        | .error _ => keySlotInfo 0 (actorOf ccb))
    else infoM f.va 4 3 write)

/-! ## The forme file (R413, R414) -/

/-- `%einfo` of FORME_IMAGE (R194, R414). -/
def imageInfo (offset reason : Nat) : Word := word (offset % 2 ^ 32 + 2 ^ 32 * reason)

/-- A rejection of an image (R414): file offset and reason. -/
abbrev ImageFault := Nat × Nat

/-- The configuration identifier of the FW1 (R40). -/
def configId : Nat := 0x00010001

/-- The first field of a header of 64 bytes that is rejected (R413, R414). -/
def headFault (v : Nat) : Option ImageFault :=
  if field v 0 4 ≠ 1 then some (0, 1)
  else if field v 4 4 ≠ configId then some (4, 2)
  else if field v 13 3 ≠ 0 then some (13, 1)
  else if field v 16 48 ≠ 0 then some (16, 1)
  else none

/-- The first placement entry whose zero field is not zero (R414). -/
def entryFault (v nplace : Nat) : Option ImageFault :=
  ((List.range nplace).find? fun p => field v (88 + 32 * p) 8 ≠ 0).map fun p => (88 + 32 * p, 1)

/-- A placement entry (R413). -/
structure PlaceEntry where
  index : Nat
  grade : Nat
  fold : Nat
  w : Nat
  h : Nat
  ntile : Nat
  timg : Nat
  mmap : Nat

/-- Placement entry p of a file's head. -/
def placeEntry (v p : Nat) : PlaceEntry :=
  let b := 64 + 32 * p
  { index := p, grade := field v b 1, fold := field v (b + 1) 1, w := field v (b + 2) 1, h := field v (b + 3) 1, ntile := field v (b + 4) 4
    timg := field v (b + 8) 8, mmap := field v (b + 16) 8 }

/-- The need of a boot grade in live tiles of a zone (R4, R18); none for grade none. -/
def gradeNeed (g : Nat) : Nat := if g = 0 then 512 else if g = 1 then 480 else if g = 2 then 448 else 0

/-- The placements considered (R415 step 1): those of a fold, in the order A, B, C, none above the boot grade, and none that binds more
tiles than its own grade has (R3). Boot grade 3 is none. -/
def candidates (v nplace fold boot : Nat) : List PlaceEntry :=
  let ps := ((List.range nplace).map (placeEntry v)).filter fun p => p.fold == fold && decide (p.ntile ≤ 48 * gradeNeed p.grade)
  if 3 ≤ boot then []
  else [0, 1, 2].flatMap fun g => if g < boot then [] else ps.filter (·.grade == g)

/-- A record of a migration map (R413). -/
def mapRange (v k : Nat) : MapRange :=
  let b := 8 + 16 * k
  { actor := field v b 2, pin := field v (b + 2) 1 % 2 == 1, all := field v (b + 2) 1 / 2 % 2 == 1, member := field v (b + 3) 1
    base := field v (b + 8) 4, length := field v (b + 12) 4 }

/-- What is wrong with a record of a migration map, by the offset of the field in it and its reason (R413, R414). -/
def mapFault (v k : Nat) : Option ImageFault :=
  let b := 8 + 16 * k
  let r := mapRange v k
  if 4 ≤ field v (b + 2) 1 then some (2, 1)
  else if r.all ∧ r.member ≠ 0 then some (3, 1)
  else if field v (b + 4) 4 ≠ 0 then some (4, 1)
  else if 2 ^ 20 ≤ r.base ∨ (r.pin ∧ r.base ≠ 0) then some (8, 1)
  else if 2 ^ 21 ≤ r.length ∨ (r.pin ∧ r.length ≠ 0) then some (12, 1)
  else if r.pin then none
  else if r.length = 0 ∨ 2 ^ 20 < r.length ∨ 2 ^ 20 < r.base + r.length then some (8, 4)
  else none

/-- The ranges of a member, in record order (R413). -/
def Choice.rangesOf (c : Choice) (actor member : Nat) : List MapRange :=
  c.ranges.filter fun r => !r.pin && r.actor == actor && (r.all || r.member == member)

/-- The tile of a member of an actor: the tile whose image names it; where none does, as on a fold, the tile of member m mod w (R316). -/
def Choice.tileOf (c : Choice) (actor member : Nat) : Option Nat :=
  let ps := c.tiles.filter (·.actor == actor)
  match ps.find? (·.member == member) with
  | some p => some p.tile
  | none => (ps.find? fun p => p.member == member % max 1 ps.length).map (·.tile)

/-- The members that a placement holds. -/
def Choice.members (c : Choice) : List (Nat × Nat) := c.tiles.map fun p => (p.actor, p.member)

/-- One of two placements of a file is a fold of the other (R424 step 1). -/
def Choice.foldOf (new old : Choice) : Bool := new.file == old.file && new.fold != old.fold

/-- The members whose ranges a fold swap copies. -/
def Choice.shared (new old : Choice) : List (Nat × Nat) := (new.members ++ old.members).eraseDups

/-- A fold range differs in length from its counterpart (R413). -/
def foldMismatch (new old : Choice) : Bool :=
  new.foldOf old && (new.shared old).any fun m =>
    (List.zip (new.rangesOf m.1 m.2) (old.rangesOf m.1 m.2)).any fun r => r.1.length != r.2.length

/-- A tag as imposition rewrites it (R416). -/
def relocate (abase : Nat) (g : Tag) : Tag :=
  if Tag.kind g = 1 ∨ Tag.kind g = 2 then Tag.make (Tag.kind g) (Tag.name g + abase) (Tag.member g) else g

/-- The 24 bits that data ranges hold at an address. -/
def tagIn (ranges : List DataRange) (a : Nat) : Tag :=
  match ranges.find? fun r => decide (r.1 ≤ a) && decide (a < r.1 + r.2.length) with
  | some r => BitVec.ofNat 24 (natOfBytes ((r.2.drop (a - r.1)).take 3))
  | none => 0

/-- The tags of an image (R413, R416). -/
def TileImage.tags (i : TileImage) : List Tag :=
  (i.outputs.filter (·.2.arc)).map (·.2.dtag) ++ i.tagsT.map (tagIn i.tdata) ++ i.tagsA.map (tagIn i.adata)

/-- A range of an image leaves its space (R414). -/
def rangeBeyond (size : Nat) (r : DataRange) : Bool := decide (size < r.1 + r.2.length)

/-- The tag of a tile image in its file (R15, R413). -/
def TileImage.tag (i : TileImage) : Tag := Tag.make 1 i.actor i.member

/-- The arcs that end at an input port of an image: producers' tags and output ports. -/
def feeders (is : List TileImage) (i : TileImage) (p : Nat) : List (Tag × Nat) :=
  is.flatMap fun j => j.outputs.filterMap fun o =>
    if o.2.arc && o.2.dtag == i.tag && o.2.dport == p then some (j.tag, o.1) else none

/-- An arc of an image ends at no input of the placement, or its tag, not of a forme, is not bound (R19, R414, reason 6): a DRAM actor, an
endpoint, or a tile's role among `roles`. -/
def arcLost (roles : Tag → Bool) (is : List TileImage) (i : TileImage) : Bool :=
  i.outputs.any fun o =>
    let g := o.2.dtag
    o.2.arc && match Tag.kind g with
      | 0 => !roles g
      | 1 | 2 => !is.any fun j => j.tag == g && (j.inputs.get InPort.reset o.2.dport).arc
      | 3 => decide (96 ≤ Tag.name g)
      | 4 => decide (20 ≤ Tag.name g)
      | _ => true

/-- What is wrong with a tile image among those of its placement (R414). -/
def imageFault (roles : Tag → Bool) (is : List TileImage) (i : TileImage) : Option ImageFault :=
  if i.tags.any fun g => 5 ≤ Tag.kind g then some (i.offset, 3)
  else if i.code.any (rangeBeyond 0x18000) || i.tdata.any (rangeBeyond 0x100000) || i.adata.any (rangeBeyond 0x20000) then some (i.offset, 4)
  else if 256 < (is.filter (·.actor == i.actor)).length || decide (1 < (is.filter fun j => j.lx == i.lx && j.ly == i.ly).length) then
    some (i.offset, 5)
  else if arcLost roles is i || i.inputs.any fun p =>
      decide (1 < (feeders is i p.1).length + (i.formeInputs.filter (·.1 == p.1)).length) then some (i.offset, 6)
  else none

/-! ## Choosing a rectangle (R415) -/

/-- A tile reserved for another chase: by its loaded placement, or after a shrink (R419, R425). -/
def State.reservedFrom (s : State) (n t : Nat) : Bool :=
  s.chases.any fun c => c.1 != n && ((match c.2.loaded with | some l => l.tiles.any (·.tile == t) | none => false) ||
    (c.2.reserved.contains t && decide (s.now < c.2.reservedUntil)))

/-- A tile is usable by a chase (R415 step 3). -/
def State.usable (s : State) (n t : Nat) : Bool :=
  let p := (s.tile t).place
  p.live && p.working && (match p.chase with | some m => m == n | none => true) && !s.reservedFrom n t

/-- The usable columns of a row between two columns. -/
def State.usableCols (s : State) (n row col0 width : Nat) : List Nat :=
  ((List.range width).map (col0 + ·)).filter fun c => s.usable n (tileAt c row)

/-- Rows in which a rectangle of width `wp` from `col0` holds `w` usable tiles each; the tiles of each row, or none. -/
def pickRows (rows : List (List Nat)) (w col0 wp : Nat) : Option (List (List Nat)) :=
  let picked := rows.map fun cs => (cs.filter fun c => decide (col0 ≤ c) && decide (c < col0 + wp)).take w
  if picked.all fun r => r.length == w then some picked else none

/-- The first rectangle that fits, width ascending, then row, then column (R415 steps 2 to 4): its word and the columns of its rows. -/
def State.fit (s : State) (n rect w h : Nat) : Option (Nat × Nat × List (List Nat)) :=
  let r : Nat × Nat × Nat × Nat :=
    if rect = 0 then (0, 0, 160, 162) else (rect % 256, rect / 256 % 256, rect / 65536 % 256, rect / 2 ^ 24 % 256)
  let c0 := r.1
  let r0 := r.2.1
  let width := r.2.2.1
  let rows := (List.range r.2.2.2).map fun y => s.usableCols n (r0 + y) c0 width
  (List.range (width + 1 - w)).findSome? fun dw =>
    (List.range (r.2.2.2 + 1 - h)).findSome? fun dy =>
      (List.range (width + 1 - (w + dw))).findSome? fun dx =>
        (pickRows ((rows.drop dy).take h) w (c0 + dx) (w + dw)).map fun p =>
          (c0 + dx + 256 * (r0 + dy) + 65536 * (w + dw) + 2 ^ 24 * h, r0 + dy, p)

/-- The actor numbers that formes of the module use: base and count (R416). -/
def State.usedBases (s : State) : List (Nat × Nat) :=
  s.chases.flatMap fun c => ([c.2.run, c.2.loaded].filterMap id).map fun k => (k.abase, k.actors)

/-- The lowest base of `k` actor numbers that no other forme uses (R416). -/
def State.abaseFor (s : State) (k : Nat) : Nat :=
  let used := s.usedBases
  ((List.range 8193).find? fun b => used.all fun e => decide (b + k ≤ e.1) || decide (e.1 + e.2 ≤ b)).getD 8193

/-! ## FMLOAD (R413 to R416, R419) -/

/-- What an FMLOAD comes to. -/
inductive Loading where
  | act (a : Act)
  | status (n : Nat)
  | loaded (s : State)

/-- The migration map of a placement, checked (R413, R414). -/
def State.readMap (s : State) (t ccb file : Nat) (e : PlaceEntry) (len : Nat) : State × Except Act (List MapRange) :=
  if len < e.mmap + 8 then (s, .error (.trap .formeImage (imageInfo (80 + 32 * e.index) 4)))
  else match s.chaseRead t ccb (file + e.mmap) 8 with
    | (s, .error f) => (s, .error (s.chaseTrap ccb f false))
    | (s, .ok h) =>
      let n := h % 65536
      if h / 65536 ≠ 0 then (s, .error (.trap .formeImage (imageInfo (e.mmap + 2) 1)))
      else if len < e.mmap + 8 + 16 * n then (s, .error (.trap .formeImage (imageInfo (80 + 32 * e.index) 4)))
      else match s.chaseRead t ccb (file + e.mmap) (8 + 16 * n) with
        | (s, .error f) => (s, .error (s.chaseTrap ccb f false))
        | (s, .ok v) =>
          match (List.range n).findSome? fun k => (mapFault v k).map fun q => (e.mmap + 8 + 16 * k + q.1, q.2) with
          | some q => (s, .error (.trap .formeImage (imageInfo q.1 q.2)))
          | none => (s, .ok ((List.range n).map (mapRange v)))

/-- The physical tile of a logical one in the rows that were picked (R415). -/
def pickedTile (row0 : Nat) (rows : List (List Nat)) (x y : Nat) : Nat := tileAt ((rows.getD y []).getD x 0) (row0 + y)

/-- A shrink's reservation ends when its chase, or one below it, completes an FMLOAD (R425). -/
def State.endReserve (s : State) (n : Nat) : State :=
  { s with chases := s.chases.map fun c =>
      if c.2.reserved.isEmpty || !s.below_ (s.ccbOf c.1) 9 (s.ccbOf n) then c else (c.1, { c.2 with reserved := [] }) }

/-- Each tile image goes into the shadow plane of its physical tile (R416, R417). -/
def State.putShadows (s : State) (ps : List Placed) (is : List TileImage) : State :=
  (List.zip ps is).foldl (fun s p => s.modTile p.1.tile fun y =>
    { y with place := { y.place with shadow := some p.2 } }) s

/-- The tile images of a placement stream into the shadow planes (R415 step 6, R416, R419). -/
def State.place (s : State) (t n ccb file head : Nat) (fold : Nat) (e : PlaceEntry) (spot : Nat × Nat × List (List Nat)) : Loading :=
  let tiles := (s.budget 0 40 4 8 ccb).getD 0
  let actors := field head 8 2
  let abase := s.abaseFor actors
  let len := Config.fileLength head
  if tiles < e.ntile then .status 2
  else if 8192 < abase + actors then .act (.trap .formeImage (imageInfo 8 7))
  else if len < e.timg then .act (.trap .formeImage (imageInfo (72 + 32 * e.index) 4))
  else match s.readMap t ccb file e len with
    | (_, .error a) => .act a
    | (s, .ok ranges) =>
      match s.chaseRead t ccb file len with
      | (s, .error f) => .act (s.chaseTrap ccb f false)
      | (s, .ok bytes) =>
        let is := Config.tileImages bytes e.index
        match is.findSome? (imageFault (fun g => (s.tileOf g).isSome) is) with
        | some q => .act (.trap .formeImage (imageInfo q.1 q.2))
        | none =>
          let ps := is.map fun i => (⟨pickedTile spot.2.1 spot.2.2 i.lx i.ly, i.lx, i.ly, i.actor, i.member, false, false⟩ : Placed)
          let c : Choice :=
            { file := file, index := e.index, grade := e.grade, fold := fold, abase := abase, actors := actors, inputs := field head 10 2
              rect := spot.1, tiles := ps, ranges := ranges }
          if (match (s.chase n).run with | some r => foldMismatch c r | none => false) then
            .act (.trap .formeImage (imageInfo e.mmap 4))
          else .loaded (((s.putShadows ps is).modChase n fun k => { k with loaded := some c }).endReserve n)

/-- FMLOAD's effect on a chase (R415, R418, R419). -/
def State.formeLoad (s : State) (t n ccb file fold : Nat) : Loading :=
  if (s.chase n).loaded.isSome then .status 3
  else match s.chaseRead t ccb file 64 with
    | (s, .error f) => .act (s.chaseTrap ccb f false)
    | (s, .ok h) =>
      match headFault h with
      | some q => .act (.trap .formeImage (imageInfo q.1 q.2))
      | none =>
        let nplace := field h 12 1
        match s.chaseRead t ccb file (64 + 32 * nplace) with
        | (s, .error f) => .act (s.chaseTrap ccb f false)
        | (s, .ok head) =>
          match entryFault head nplace with
          | some q => .act (.trap .formeImage (imageInfo q.1 q.2))
          | none =>
            let rect := (s.ccbGet ccb 56 4).getD 0
            let fits := (candidates head nplace fold s.plat.root.bootGrade).findSome? fun e =>
              (s.fit n rect e.w e.h).map fun spot => (e, spot)
            match fits with
            | none => .status 2
            | some (e, spot) => s.place t n ccb file head fold e spot

/-- The chase of a CCB, whose address the module keeps (R411). -/
def State.nameChase (s : State) (ccb : Nat) : State × Nat :=
  let n := (s.ccbGet ccb 4 2).getD 0
  (s.modChase n fun c => { c with ccb := some ccb }, n)

/-- The fold factor that FMLOAD's gb[1:0] asks for (R418). -/
def foldOf (b : Word) : Nat := 2 ^ bits b 0 2

/-- A FORME instruction on the CCB at `ccb`: its alignment, and its statuses 1 and 4 (R418). -/
def formeOp (o : Opnd) (masked : Bool) (body : Nat → Nat → State → State × Act) (s : State) : State × Act :=
  let a := (s.rg (an o)).toNat
  let ccb := a / 256 * 256
  if !masked && a % 256 != 0 then (s, .trap .align (infoM a 4 3 false))
  else if !s.ccbValid ccb then computeLong o (fun _ => 1) s
  else
    let r := s.nameChase ccb
    if s.chaseBusy r.2 s.cur then computeLong o (fun _ => 4) s else body ccb r.2 r.1

/-- FMLOAD (R418, R419). -/
def execFmload (o : Opnd) (s : State) : Host.Outcome State Fault Refusal :=
  meaning o .none (kernelOp (.fmload o) (.g [an o, bn o] [dn o]) fun s =>
    let b := s.rg (bn o)
    if (s.rg (an o)).toNat % 256 == 0 && (bits b 0 2 == 3 || bits b 2 10 != 0) then
      (s, .trap .align (infoM b.toNat 4 3 false))
    else formeOp o false (fun ccb n s =>
      match s.formeLoad s.cur.tile n ccb (b.toNat / 4096 * 4096) (foldOf b) with
      | .act a => (s, a)
      | .status k => computeLong o (fun _ => word k) s
      | .loaded s => computeLong o (fun _ => 0) s) s) s

/-! ## Drains (R421, R422) -/

/-- The input ports of a tile with an arc, each of which is to hold a mark, or a probe, as its oldest token (R328, R421). -/
def State.fedPorts (s : State) (t : Nat) : List Nat := ((s.tile t).port.inputs.filter fun p => p.2.arc).map Prod.fst

/-- The chase of a tile is being drained. -/
def State.draining (s : State) (t : Nat) : Bool :=
  match (s.tile t).place.chase with
  | some n => (match (s.chase n).work with | .drain _ _ => true | .none => false)
  | none => false

/-- A tile may perform its probe step (R421 step 2); one with no fed port performs it as the drain begins, once it has slots. -/
def State.probeDue (s : State) (t : Nat) : Bool :=
  let e := (s.tile t).port
  let ps := s.fedPorts t
  !e.probed && e.firing.isNone && (!ps.isEmpty || s.draining t) &&
    (ps.all fun p => match (s.inPort t p).front with | some k => k.isProbe | none => false) && s.hasSlots t e.arcs

/-- The probe step of a tile (R421 steps 2 and 3). -/
def State.probeStep (s : State) (t : Nat) : State :=
  let s := (s.fedPorts t).foldl (fun s p => s.consumeFront t p) s
  (s.sendAll t (s.tile t).port.arcs .probe 0 0).modPort t fun e => { e with probed := true }

/-- PROBE_STEP (R421). -/
def execProbeStep (t : Nat) (s : State) : Host.Outcome State Fault Refusal :=
  .next (if s.probeDue t then s.probeStep t else s)

/-- No operation of a tile's engines is outstanding, and no reply is owed to a DREQ port (R421 step 4). -/
def State.enginesIdle (s : State) (t : Nat) : Bool :=
  let y := s.tile t
  (y.eng.channels.all fun c => c.2.queue.isEmpty && c.2.dropped.isEmpty) && (y.port.outputs.all fun o => o.2.owed.isEmpty) &&
    (List.range 4).all fun c =>
      let k := y.core c
      k.mq.cmds.isEmpty && k.mq.dropped.isEmpty && k.streams.all fun u => match u.2.bind with | some b => !b.write || b.open_.isEmpty | none => true

/-- No walk is open on a tile (R421, R426). -/
def State.walksIdle (s : State) (t : Nat) : Bool := (List.range 4).all fun c => (s.walker t c).piece.isNone && (s.walker t c).open_.isEmpty

/-- No handler runs on a tile. -/
def State.handlersIdle (s : State) (t : Nat) : Bool :=
  (s.tile t).port.firing.isNone && (s.ctxList t).all fun u => (s.ctx u).status == .free || (s.ctx u).handler == .none

/-- A tile is drained (R421 step 4). -/
def State.tileDrained (s : State) (t : Nat) : Bool := (s.tile t).port.probed && s.handlersIdle t && s.walksIdle t && s.enginesIdle t

/-- Every tile of a chase is drained. -/
def State.chaseDrained (s : State) (n : Nat) : Bool := (s.runTiles n).all s.tileDrained

/-- A forme input of a chase. -/
def State.input (s : State) (n i : Nat) : Option FormeInput := (s.chase n).inputs.find i

/-- The state with a forme input changed. -/
def State.modInput (s : State) (n i : Nat) (f : FormeInput → FormeInput) : State :=
  s.modChase n fun c => { c with inputs := c.inputs.map fun p => if p.1 = i then (p.1, f p.2) else p }

/-- A token as a forme input sends it (R390): from the service tile of the zone of the galley that feeds it. -/
def State.inputToken (s : State) (i : FormeInput) (kind : TokKind) (payload : Token) (len : Nat) : Tok :=
  { kind := kind, payload := payload, len := len, stag := roleTag ((s.serviceTile i.zone).getD 0), sport := 0, seq := i.seq, status := 0, row := 0
    dreq := none, via := none }

/-- A token is sent into a forme input, or waits for a slot (R319, R390, R426). -/
def State.feed (s : State) (n i : Nat) (kind : TokKind) (payload : Token) (len : Nat) : State :=
  match s.input n i with
  | none => s
  | some k =>
    let tok := s.inputToken k kind payload len
    if k.slots = 0 ∨ !k.waiting.isEmpty then s.modInput n i fun k => { k with seq := k.seq + 1, waiting := k.waiting ++ [tok] }
    else (s.modInput n i fun k => { k with seq := k.seq + 1, slots := k.slots - 1 }).post (.token (s.placeOf k.tag) k.tag k.port tok)

/-- A drain begins (R421 steps 1 and 2). -/
def State.startDrain (s : State) (n : Nat) (colophon : Bool) : State :=
  let s := if colophon then s.modChase n fun c => { c with inputs := c.inputs.map fun i => (i.1, { i.2 with probeDue := true }) }
    else (s.chase n).inputs.foldl (fun s i => s.feed n i.1 .probe 0 0) s
  (s.runTiles n).foldl (fun s t =>
    if (s.fedPorts t).isEmpty && !(s.tile t).port.probed && s.hasSlots t (s.tile t).port.arcs then s.probeStep t else s) s

/-- Every token of an input queue is discarded, its slot returned; how many there were. A resident sticky token is not in the queue, and
stays (R421, R422). -/
def State.discardPort (s : State) (t p : Nat) : State × Nat :=
  let q := (s.inPort t p).strays
  ((q.foldl (fun s k => s.returnSlot t p k) s).modIn t p fun d => { d with queue := if d.uses.isSome then d.queue.take 1 else [] }, q.length)

/-- Every token of every input queue of a chase is discarded (R421 step 6). -/
def State.discardAll (s : State) (n : Nat) : State × Nat :=
  (s.runTiles n).foldl (fun r t =>
    ((r.1.tile t).port.inputs.map Prod.fst).foldl (fun r p => let q := r.1.discardPort t p; (q.1, r.2 + q.2)) r) (s, 0)

/-- FMDRAIN's effect on a chase: it starts, or is found complete, or waits (R421). -/
def State.formeDrain (s : State) (n : Nat) (discard colophon : Bool) (by_ : Option (Nat × Nat × Nat)) : State × Option Nat :=
  let c := s.chase n
  let mine := c.by_ == by_ && (match c.work with | .drain _ _ => true | .none => false)
  let s := if mine || s.chaseDrained n then s else s.startDrain n colophon
  if s.chaseDrained n then
    let s := s.modChase n fun c => { c with work := .none, by_ := none }
    if discard then (let r := s.discardAll n; (r.1, some r.2)) else (s, some 0)
  else (s.modChase n fun c => { c with work := .drain discard colophon, by_ := by_ }, none)

/-- FMDRAIN (R418, R421). -/
def execFmdrain (o : Opnd) (s : State) : Host.Outcome State Fault Refusal :=
  meaning o .none (kernelOp (.fmdrain o) (.g [an o, bn o] [dn o]) (formeOp o false fun _ n s =>
    let b := s.rg (bn o)
    let u := s.cur
    if bits b 2 62 ≠ 0 then computeLong o (fun _ => 5) s
    else match s.formeDrain n (b.getLsbD 0) (b.getLsbD 1) (some (u.tile, u.core, u.ctx)) with
      | (s, some k) => computeLong o (fun _ => word (2 ^ 32 * k)) s
      | (s, none) => (s, .wait .drain))) s

/-- The drain that a context waits for is complete (R421 step 5). -/
def State.drainDone (s : State) (u : Cur) : Bool :=
  s.chases.all fun c => c.2.by_ != some (u.tile, u.core, u.ctx) || s.chaseDrained c.1

/-! ## The swap (R423, R424) -/

/-- The first stray of a chase, in ascending member tag and then port (R422, R423 step 2): its tag, port and seq. -/
def State.firstStray (s : State) (n : Nat) : Option (Tag × Nat × BitVec 32) :=
  let ts := sortBy (fun t => (s.tile t).place.member.toNat) (s.runTiles n)
  ts.findSome? fun t => (s.tile t).port.inputs.findSome? fun p =>
    p.2.strays.head?.map fun k => ((s.tile t).place.member, p.1, k.seq)

/-- The placement record of a choice (R416): its bytes and the number they hold. -/
def Choice.record (c : Choice) : Nat × Nat :=
  let ps := sortBy (fun p => p.ly * 256 + p.lx) c.tiles
  let entry (p : Placed) : Nat :=
    tileName p.tile + 2 ^ 16 * p.lx + 2 ^ 24 * p.ly + 2 ^ 32 * p.actor + 2 ^ 40 * p.member + 2 ^ 48 * p.spare.toNat + 2 ^ 49 * p.moved.toNat
  let head := ps.length % 256 + 256 * c.grade + 65536 * c.fold + 2 ^ 32 * c.rect
  (16 + 8 * ps.length, head + 2 ^ 128 * ps.foldr (fun p n => entry p + 2 ^ 64 * n) 0)

/-- The bytes that a fold swap carries over (R424 step 1): destination tile and address, length and value. -/
def State.foldCopies (s : State) (new old : Choice) : List (Nat × Nat × Nat × Nat) :=
  if !new.foldOf old then []
  else (new.shared old).flatMap fun m =>
    match new.tileOf m.1 m.2, old.tileOf m.1 m.2 with
    | some d, some t => (List.zip (new.rangesOf m.1 m.2) (old.rangesOf m.1 m.2)).map fun r =>
        (d, r.1.base, r.1.length, s.readLocal t 0 .t noKey r.2.base r.2.length)
    | _, _ => []

/-- X without its forme region (R417). -/
def clearForme (x : Memory) : Memory := x.filter fun b => 0x18000 ≤ b.1

/-- The uncorrectable units of X left by a write of the whole forme region (R106). -/
def clearFormeBad (bad : List Nat) : List Nat := bad.filter (0x1800 ≤ ·)

/-- The kernel region's bytes with the code of an image before them (R417, R424). -/
def loadCode (x : Memory) (code : List DataRange) : Memory :=
  code.foldl (fun (m : Memory) r => m.writeNat r.1 r.2.length (natOfBytes r.2)) (clearForme x)

/-- Data ranges written into a space of a tile, and the tags they hold rewritten (R416, R424 step 3). -/
def State.writeData (s : State) (t c : Nat) (sp : Space) (abase : Nat) (ranges : List DataRange) (tags : List Nat) : State :=
  let s := ranges.foldl (fun s r => s.writeLocal t c sp noKey r.1 r.2.length (natOfBytes r.2)) s
  tags.foldl (fun s a => s.writeLocal t c sp noKey a 3 (relocate abase (BitVec.ofNat 24 (s.readLocal t c sp noKey a 3))).toNat) s

/-- The ports, the descriptor and the mail bindings of an image, with its tags rewritten, as a swap leaves them (R424 steps 2 and 4). What
the tile holds of mail stays. -/
def PortEngine.install (e : PortEngine) (is : List TileImage) (i : TileImage) (abase : Nat) : PortEngine :=
  let input (p : Nat × InPort) : Nat × InPort :=
    (p.1, { p.2 with queue := [], uses := none, sealed_ := none
                     src := (feeders is i p.1).head?.map fun f => (relocate abase f.1, f.2) })
  let output (p : Nat × OutPort) : Nat × OutPort :=
    (p.1, { p.2 with dtag := relocate abase p.2.dtag, seq := 0, slots := 8, owed := [], seamed := false })
  { e with
    inputs := i.inputs.map input
    outputs := i.outputs.map output
    desc := i.desc
    mails := i.mails
    firing := none
    probed := false
    stub := none
    proofAt := 0 }

/-- Quires, windows, slot tables and weights of an image (R424 step 3). A quire that the image does not describe keeps its state. -/
def Tile.configure (y : Tile) (i : TileImage) : Tile :=
  let core (c : Nat) (k : Core) : Core := { k with
    wdesc := (List.range 16).foldl (fun (m : Sparse Word) n => m.set 0 n (i.windows.get 0 (16 * c + n))) [] }
  let eng : TileEngines := { y.eng with
    quires := i.quires.foldl (fun (m : Sparse Quire) q => m.put q.1 ((m.get Quire.reset q.1).load q.2)) y.eng.quires
    slotTable := i.slotTable.mapIdx fun n v => (n, v)
    arbiter := { y.eng.arbiter with weights := if i.weights.isEmpty then [1, 1, 1, 1] else i.weights, fresh := true } }
  [0, 1, 2, 3].foldl (fun y c => y.setCore c (core c (y.core c))) { y with eng := eng }

/-- X with a micro-kernel's body in its kernel region (R417). -/
def withKernel (x : Memory) (body : List Byte) : Memory :=
  x.filter (fun c => decide (c.1 < 0x18000)) ++
    ((body.mapIdx fun i b => (0x18000 + i, b)).filter fun c => c.2 != Memory.unlisted)

/-- A tile whose cores start (R454 step 7): the micro-kernel in its X, `%tvec` at the region's start, and core 0 told. -/
def Tile.startKernel (y : Tile) (body : List Byte) : Tile :=
  let core (k : Core) : Core := { k with tvec := 0x18000 }
  { y with
    x := withKernel y.x body
    xbad := y.xbad.filter (· < 0x1800)
    cores := (List.range 4).foldl (fun m c => m.put c (if c = 0 then (core (y.core c)).notify .firmwareState 1 else core (y.core c))) y.cores }

/-- A tag is bound to a tile, and to no other (R16). -/
def State.bindTag (s : State) (g : Tag) (t : Nat) : State := { s with tags := s.tags.put g.toNat t }

/-- A tag is unbound. -/
def State.unbindTag (s : State) (g : Tag) : State := { s with tags := s.tags.erase g.toNat }

/-- The footprint and shard tags of a tile are unbound. -/
def State.unbindTile (s : State) (t : Nat) : State :=
  { s with tags := s.tags.filter fun e => !(e.2 == t && (decide (e.1 / 2 ^ 21 = 1) || decide (e.1 / 2 ^ 21 = 2))) }

/-- A tile joins a chase as the tile of a member tag, its node at the chase's root (R358, R424). -/
def State.joinChase (s : State) (t n ccb : Nat) (g : Tag) : State :=
  let key := BitVec.ofNat 10 ((s.ccbKey ccb).getD 0)
  let s := s.modTile t fun y => { y with place := { y.place with chase := some n, member := g, shadow := none } }
  (s.modXnode t fun _ => { Xnode.reset with root := ccb + 16, key := key, chase := n }).bindTag g t

/-- One tile's image becomes its configuration (R424 steps 2 to 4). -/
def State.install (s : State) (n ccb abase : Nat) (is : List TileImage) (t : Nat) (i : TileImage) : State :=
  let s := s.modTile t fun y => { y.configure i with x := loadCode y.x i.code, xbad := clearFormeBad y.xbad, port := y.port.install is i abase }
  let s := s.writeData t 0 .t abase i.tdata i.tagsT
  let s := [0, 1, 2, 3].foldl (fun s c => s.writeData t c .a abase i.adata i.tagsA) s
  (s.modTile t fun y => { y with place := { y.place with stateArea := i.state } }).joinChase t n ccb (relocate abase i.tag)

/-- A tile leaves its chase: T, A, C and W zero, the forme region of X clear, no tag bound to it (R417). -/
def State.leaveChase (s : State) (t : Nat) : State :=
  (s.unbindTile t).modTile t fun y =>
    let clear (k : Core) : Core := { k with a := LocalMem.zero, c := LocalMem.zero, w := LocalMem.zero, wdesc := [] }
    [0, 1, 2, 3].foldl (fun y c => y.setCore c (clear (y.core c)))
      { y with
        t := LocalMem.zero
        x := clearForme y.x
        xbad := clearFormeBad y.xbad
        port := { PortEngine.reset with mailIds := y.port.mailIds }
        eng := { y.eng with quires := [], xnode := Xnode.reset }
        place := { y.place with chase := none, member := 0, stateArea := (0, 0) } }

/-- The forme inputs of a placement as they stand after its swap (R424 step 4, R426, R428). -/
def formeInputs (abase : Nat) (is : List TileImage) : Sparse FormeInput :=
  is.foldl (fun (m : Sparse FormeInput) i => i.formeInputs.foldl (fun (m : Sparse FormeInput) p => m.put p.2
    { tag := relocate abase i.tag, port := p.1, seq := 0, slots := 8, colophons := 0, cut := 0, logNext := 0, logFirst := 0, marks := []
      waiting := [], probeDue := false, heldAt := false, zone := 0 }) m) []

/-- The loader's fields of a CCB (R424 step 6). A rect that was given stays: the chase's rectangle. -/
def State.writeCcb (s : State) (ccb : Nat) (c : Choice) : State :=
  let rect := (s.ccbGet ccb 56 4).getD 0
  let s := s.sysWrite (ccb + 54) 2 c.abase
  let s := s.sysWrite (ccb + 56) 4 (if rect = 0 then c.rect else rect)
  let s := s.sysWrite (ccb + 60) 1 c.grade
  let s := s.sysWrite (ccb + 61) 1 c.fold
  let s := s.sysWrite (ccb + 64) 8 c.file
  s.sysWrite (ccb + 84) 4 0

/-- The swap of a chase to its loaded placement (R424); the rebalancer reads its word (R372). -/
def State.swapIn (s : State) (n ccb : Nat) (c : Choice) : State :=
  let old := s.runTiles n
  let copies := match (s.chase n).run with | some r => s.foldCopies c r | none => []
  let is := c.tiles.filterMap fun p => (s.tile p.tile).place.shadow.map fun i => (p.tile, i)
  let s := old.foldl State.unbindTile s
  let s := copies.foldl (fun s k => s.writeLocal k.1 0 .t noKey k.2.1 k.2.2.1 k.2.2.2) s
  let s := is.foldl (fun s p => s.install n ccb c.abase (is.map Prod.snd) p.1 p.2) s
  let s := (old.filter fun t => !(c.tiles.any (·.tile == t))).foldl State.leaveChase s
  let s := s.writeCcb ccb c
  let s := s.modChase n fun k => { k with
    run := some c
    loaded := none
    work := .none
    by_ := none
    inputs := formeInputs c.abase (is.map Prod.snd) }
  { s with rebals := s.rebals.put n { s.rebals.get Rebalancer.reset n with word := word ((s.ccbGet ccb 32 8).getD 0) } }

/-- What an FMSWAP comes to. -/
inductive Swapping where
  | act (a : Act)
  | status (n : Nat)
  | swapped (s : State)

/-- FMSWAP's effect on a chase (R418, R423). -/
def State.formeSwap (s : State) (t core n ccb : Nat) : Swapping :=
  match (s.chase n).loaded with
  | none => .status 2
  | some c =>
    if !s.chaseDrained n then .status 3
    else match s.firstStray n with
      | some (g, p, seq) => .act (.trap .formeStrayToken (word (g.toNat + 2 ^ 24 * p + 2 ^ 32 * seq.toNat)))
      | none =>
        let r := c.record
        match s.chaseWrite t core ccb ((s.ccbGet ccb 72 8).getD 0) r.1 r.2 with
        | (_, .error f) => .act (s.chaseTrap ccb f true)
        | (s, .ok _) => .swapped (s.swapIn n ccb c)

/-- FMSWAP (R418, R423). -/
def execFmswap (o : Opnd) (s : State) : Host.Outcome State Fault Refusal :=
  meaning o .none (kernelOp (.fmswap o) (.g [an o] [dn o]) (formeOp o true fun ccb n s =>
    match s.formeSwap s.cur.tile s.cur.core n ccb with
    | .act a => (s, a)
    | .status k => computeLong o (fun _ => word k) s
    | .swapped s => computeLong o (fun _ => 0) s)) s

/-! ## FMCLEAR and TAGBIND (R419, R420) -/

/-- The shadow planes of a chase empty, and its reservation goes (R419); its drained tiles go on (R421). -/
def State.formeClear (s : State) (n : Nat) : State :=
  let s := (s.loadedTiles n).foldl (fun s t => s.modTile t fun y => { y with place := { y.place with shadow := none } }) s
  let s := (s.runTiles n).foldl (fun s t => s.modPort t fun e => { e with probed := false }) s
  s.modChase n fun c => { c with loaded := none }

/-- FMCLEAR (R418, R419). -/
def execFmclear (o : Opnd) (s : State) : Host.Outcome State Fault Refusal :=
  meaning o .none (kernelOp (.fmclear o) (.g [an o] [dn o]) (formeOp o false fun _ n s =>
    if (s.chase n).loaded.isNone then computeLong o (fun _ => 2) s
    else computeLong o (fun _ => 0) (s.formeClear n))) s

/-- The chase whose running forme a tag belongs to (R416). -/
def State.chaseOfTag (s : State) (g : Tag) : Option Nat :=
  if Tag.kind g ≠ 1 ∧ Tag.kind g ≠ 2 then none
  else (s.chases.find? fun c => match c.2.run with
    | some r => decide (r.abase ≤ Tag.name g) && decide (Tag.name g < r.abase + r.actors)
    | none => false).map Prod.fst

/-- TAGBIND's effect (R420): its status. -/
def State.tagBind (s : State) (g : Tag) (b : Word) : State × Nat :=
  let t := tileAt (bits b 0 8) (bits b 8 8)
  if bits b 17 47 ≠ 0 then (s, 3)
  else match s.chaseOfTag g with
    | none => (s, 1)
    | some n =>
      if b.getLsbD 16 then (s.unbindTag g, 0)
      else
        let p := (s.tile t).place
        if !p.live || !(decide (bits b 0 8 < 160) && decide (bits b 8 8 < 162)) || (match p.chase with | some m => m != n | none => false) then (s, 2)
        else ((s.bindTag g t).modTile t fun y => { y with place := { y.place with chase := some n, member := g } }, 0)

/-- TAGBIND (R420). -/
def execTagbind (o : Opnd) (s : State) : Host.Outcome State Fault Refusal :=
  meaning o .none (kernelOp (.tagbind o) (.g [an o, bn o] [dn o]) fun s =>
    let r := s.tagBind ((s.rg (an o)).setWidth 24) (s.rg (bn o))
    computeLong o (fun _ => word r.2) r.1) s

end Sys2Proof.Machine
end

