-- ==== Sys2Proof/Machine/Rebalance.lean ====
section
/-! DEFINITION. The rebalancer (chapter 14 of spec/): windows, migrations, stubs and seams, and MIGRATE (R372 to R383). -/

namespace Sys2Proof.Machine

/-! ## Rebalancers -/

/-- A chase's rebalancer. -/
def State.rebal (s : State) (n : Nat) : Rebalancer := s.rebals.get Rebalancer.reset n

/-- The state with a rebalancer changed. -/
def State.modRebal (s : State) (n : Nat) (f : Rebalancer → Rebalancer) : State := { s with rebals := s.rebals.put n (f (s.rebal n)) }

/-- Fields of the rebalancer word (R372). -/
def rebalHi (w : Word) : Nat := bits w 1 7
def rebalWin (w : Word) : Nat := bits w 8 4
def rebalGain (w : Word) : Nat := bits w 12 5
def rebalCool (w : Word) : Nat := bits w 17 8

/-- The rebalancer migrates on its own decisions (R372). -/
def rebalEn (w : Word) : Bool := w.getLsbD 0 && rebalHi w != 0 && rebalWin w != 0 && rebalGain w != 0 && bits w 26 38 == 0

/-- The run of a chase, if it runs a forme. -/
def State.runOf (s : State) (n : Nat) : Option Choice := (s.chase n).run

/-- An actor of a placement is pinned: any pin record of its own pins all of it (R376, R413). -/
def Choice.pinned (c : Choice) (actor : Nat) : Bool := c.ranges.any fun r => r.pin && r.actor == actor

/-- A tile's report of a rebalancer window (R373): occupancy and lowest step. -/
structure WindowSample where
  tile : Nat
  occ : Nat
  low : Nat

/-- A tile is a destination for a tile of a chase (R375): a free working tile in the chase's rectangle that no placement of the chase
reserves. -/
def State.isDestination (s : State) (n src : Nat) (zone : Bool) (t : Nat) : Bool :=
  let p := (s.tile t).place
  let rect := (s.ccbGet (s.ccbOf n) 56 4).getD 0
  let c0 := rect % 256
  let r0 := rect / 256 % 256
  p.live && p.working && p.chase.isNone && !(s.loadedTiles n).contains t &&
    decide (c0 ≤ colOf t) && decide (colOf t < c0 + rect / 65536 % 256) && decide (r0 ≤ rowOf t) && decide (rowOf t < r0 + rect / 2 ^ 24 % 256) &&
    (!zone || zoneOf t == zoneOf src)

/-- The order in which destinations are preferred (R375): highest available step, fewest hops, lower zone, lower (row, column). -/
def State.destRank (s : State) (src t : Nat) : Nat :=
  ((((31 - (s.tile t).clk.avail) * 512 + dist (colOf src) (colOf t) + dist (rowOf src) (rowOf t)) * 64 + zoneOf t) * 2 ^ 16) + t

/-- The best destination for a tile (R375). -/
def State.destination (s : State) (n src : Nat) (zone : Bool) : Option Nat :=
  (sortBy (s.destRank src) ((s.tiles.map Prod.fst).filter (s.isDestination n src zone))).head?

/-- A migration of a member tile is ordered: its step 1 is next (R377). -/
def State.orderMigration (s : State) (n src dst : Nat) (g : Tag) (by_ : Option (Nat × Nat × Nat)) : State :=
  s.modRebal n fun r => { r with
    migration := some { step := 1, src := src, dst := dst, tag := g, debts := [], sent := [], seams := [], by_ := by_ } }

/-- The window counts of a rebalancer after a window's reports (R373, R374). -/
def Rebalancer.window (r : Rebalancer) (w : Word) (reports : List WindowSample) : Rebalancer :=
  let count (m : Sparse Nat) (k : WindowSample) : Sparse Nat :=
    if rebalHi w ≤ k.occ then m.set 0 k.tile (min (r.windows.get 0 k.tile + 1) (2 ^ 32 - 1)) else m.erase k.tile
  { r with
    word := w
    windows := reports.foldl count r.windows
    cool := r.cool.filterMap fun c => if c.2 ≤ 1 then none else some (c.1, c.2 - 1) }

/-- A tile may be moved by the rebalancer (R374): how full it was and where it would go. -/
def State.candidate (s : State) (n : Nat) (r : Rebalancer) (cool : Sparse Nat) (run : Choice) (k : WindowSample) :
    Option (WindowSample × Nat × Tag) :=
  match run.tiles.find? (·.tile == k.tile) with
  | none => none
  | some p =>
    if run.pinned p.actor || (cool.find k.tile).isSome || decide (r.windows.get 0 k.tile < rebalWin r.word) then none
    else match s.destination n k.tile (r.word.getLsbD 25) with
      | some d => if k.low + rebalGain r.word ≤ (s.tile d).clk.avail then some (k, d, (s.tile k.tile).place.member) else none
      | none => none

/-- The candidate that is migrated: the fullest, ties to the lower tag (R374). -/
def pickCandidate : List (WindowSample × Nat × Tag) → Option (WindowSample × Nat × Tag)
  | [] => none
  | c :: cs => match pickCandidate cs with
    | none => some c
    | some d => some (if d.1.occ < c.1.occ ∨ (d.1.occ = c.1.occ ∧ c.2.2.toNat ≤ d.2.2.toNat) then c else d)

/-- The rebalancer is stopped by a hold of its unit on a tile of the chase (R405). -/
def State.rebalHeld (s : State) (n : Nat) : Bool := (s.runTiles n).any fun t => s.unitHeld t 8 0

/-- The last window that every tile of a chase has measured whole. -/
def State.windowOf (s : State) (n : Nat) : Option Nat := ((s.runTiles n).map fun t => (s.tile t).gauge.window).min?

/-- The reports of the tiles of a chase at the end of a window (R373). -/
def State.windowReports (s : State) (n : Nat) : List WindowSample :=
  (s.runTiles n).map fun t => ⟨t, (s.tile t).gauge.occ, (s.tile t).gauge.lowest⟩

/-- REBALANCER_WINDOW (R372 to R374): once every tile has come to the end of the window of this number, their reports of it, and what the
rebalancer decides. -/
def execRebalancerWindow (chase window : Nat) (s : State) : Host.Outcome State Fault Refusal :=
  match s.runOf chase, s.windowOf chase with
  | some run, some k =>
    if k ≠ window ∨ k ≤ (s.rebal chase).seen then .next s
    else
      let reports := s.windowReports chase
      let w := word ((s.ccbGet (s.ccbOf chase) 32 8).getD 0)
      let cool := (s.rebal chase).cool
      let s := s.modRebal chase fun r => { r.window w reports with seen := k }
      let r := s.rebal chase
      .next (if !rebalEn w || s.migrating chase || (s.chase chase).work != .none || s.rebalHeld chase then s
        else match pickCandidate (reports.filterMap (s.candidate chase r cool run)) with
          | some (k, d, g) => s.orderMigration chase k.tile d g none
          | none => s)
  | _, _ => .next s

/-! ## The steps of a migration (R376, R377) -/

/-- MIGRATION_FREEZE (R377 step 1). -/
def execMigrationFreeze (chase : Nat) (s : State) : Host.Outcome State Fault Refusal :=
  match (s.rebal chase).migration with
  | some m =>
    .next (if m.step = 1 then
        (s.modPort m.src fun e => { e with frozen := true }).modRebal chase fun r => { r with migration := some { m with step := 2 } }
      else s)
  | none => .next s

/-- The output ports of a tile on which seams are sent: DREQ requests need none (R379). -/
def State.seamPorts (s : State) (t : Nat) : List Nat := (s.tile t).port.arcs.filter fun p => Tag.kind (s.outPort t p).dtag != 3

/-- MIGRATION_QUIESCED (R377 steps 2 to 4): nothing of the actor runs, and a seam leaves on each output port with an arc. -/
def execMigrationQuiesced (chase : Nat) (s : State) : Host.Outcome State Fault Refusal :=
  match (s.rebal chase).migration with
  | some m =>
    if m.step = 2 && s.handlersIdle m.src && s.walksIdle m.src && s.enginesIdle m.src then
      let ps := s.seamPorts m.src
      let s' := ps.foldl (fun s p => let o := s.outPort m.src p; s.post (.seam (s.placeOf o.dtag) o.dtag o.dport m.tag p none)) s
      .next (s'.modRebal chase fun r => { r with migration := some { m with step := 4, seams := ps } })
    else .next s
  | none => .next s

/-- The uncorrectable units of T that lie in some ranges (R106). -/
def badIn (key : BitVec 56) (rs : List MapRange) (bad : List Nat) : List Nat :=
  bad.filter fun u => rs.any fun r =>
    (List.range ((r.length + 31) / 16)).any fun i => tPlace key ((r.base / 16 + i) * 16) / 16 == u && decide ((r.base / 16 + i) * 16 < r.base + r.length)

/-- A tile with what migrates to it (R376): the forme region of X, the ranges of T, windows, weights, quires, slot tables, the port engine
and the node's root. -/
def Tile.receive (d y : Tile) (rs : List MapRange) : Tile :=
  let key := y.port.desc.bkey
  let t := rs.foldl (fun (m : LocalMem) r => { m with bytes := m.bytes.writeTN key r.base r.length (y.t.readTN key r.base r.length) }) d.t
  let x := y.eng.xnode
  let d := { d with
    t := { t with bad := (d.t.bad ++ badIn key rs y.t.bad).eraseDups }
    x := y.x.filter (fun b => b.1 < 0x18000) ++ clearForme d.x
    xbad := y.xbad.filter (· < 0x1800) ++ clearFormeBad d.xbad
    eng := { d.eng with
      quires := y.eng.quires
      slotTable := y.eng.slotTable
      arbiter := { d.eng.arbiter with weights := y.eng.arbiter.weights, fresh := true }
      xnode := { d.eng.xnode with root := x.root, key := x.key, chase := x.chase, rgen := x.rgen, buf := [] } }
    port := { y.port with mailIds := d.port.mailIds, frozen := false, stub := none } }
  [0, 1, 2, 3].foldl (fun d c => d.setCore c { d.core c with wdesc := (y.core c).wdesc }) d

/-- An output port of a tile feeds a migrated tag (R377 step 5): its arc ends at the tag; or it is a DREQ port, and a reply to it is owed to
the tag, stands in a queue of the tile, or has been consumed there while its slot is still on its way. -/
def State.feeds (s : State) (g : Tag) (src : Nat) (queued : List (Tag × Nat)) (t p : Nat) (o : OutPort) : Bool :=
  if Tag.kind o.dtag = 3 then
    o.owed.any (·.rtag == g) || queued.contains (s.tileTag t, p) ||
      s.net.any fun m => match m with | .slot _ h q _ u => h == s.tileTag t && q == p && u == src | _ => false
  else o.arc && o.dtag == g

/-- The feeding ports of a tag and their debts: `queued` the requesting ports whose replies stand in its queues. -/
def State.debtsOf (s : State) (g : Tag) (src : Nat) (queued : List (Tag × Nat)) : Sparse Nat :=
  s.tiles.foldl (fun (m : Sparse Nat) y => y.2.port.outputs.foldl (fun (m : Sparse Nat) o =>
    if s.feeds g src queued y.1 o.1 o.2 && decide (o.2.slots < 8) then m.put (16 * y.1 + o.1) (8 - o.2.slots) else m) m) []

/-- The seqs that the ports of some debts have reached (R378). -/
def State.sentBy (s : State) (debts : Sparse Nat) : Sparse (BitVec 32) :=
  debts.map fun d => (d.1, (s.outPort (d.1 / 16) (d.1 % 16)).seq)

/-- MIGRATION_REBIND (R377 steps 4 to 6, R381): the copy ends, the tag is bound to the destination, the source becomes a stub. -/
def execMigrationRebind (chase : Nat) (s : State) : Host.Outcome State Fault Refusal :=
  match (s.rebal chase).migration, s.runOf chase with
  | some m, some run =>
    if m.step = 4 && (s.tile m.dst).place.live then
      let y := s.tile m.src
      let rs := match run.tiles.find? (·.tile == m.src) with | some p => run.rangesOf p.actor p.member | none => []
      let s := s.modTile m.dst fun d =>
        let d := d.receive y rs
        { d with
          place := { d.place with chase := some chase, member := m.tag, stateArea := y.place.stateArea }
          port := { d.port with outputs := d.port.outputs.map fun o => (o.1, { o.2 with seamed := o.2.seamed || m.seams.contains o.1 }) } }
      let s := (s.bindTag m.tag m.dst).modPort m.src fun e => { PortEngine.reset with
        mailIds := e.mailIds, held := e.held, stub := some ⟨m.dst, m.tag⟩ }
      let s := s.modTile m.src fun d => { d with place := { d.place with member := 0 } }
      let queued := (s.tile m.dst).port.inputs.flatMap fun p => p.2.queue.filterMap (·.dreq)
      let debts := s.debtsOf m.tag m.src queued
      let s := s.modRebal chase fun r => { r with migration := some { m with step := 7, debts := debts, sent := s.sentBy debts } }
      let moved (p : Placed) : Placed := if p.tile = m.src then { p with tile := m.dst, moved := true } else p
      let s := s.modChase chase fun c => { c with run := some { run with tiles := run.tiles.map moved } }
      .next (s.notify m.dst 0 .migrate (word (m.tag.toNat + 2 ^ 48 * colOf m.dst + 2 ^ 56 * rowOf m.dst)))
    else .next s
  | _, _ => .next s

/-! ## Stubs and seams (R378, R379) -/

/-- Where a message that reaches a stub is sent on to (R378). -/
def State.stubAt (s : State) (t : Nat) (g : Tag) : Option Nat :=
  match (s.tile t).port.stub with
  | some b => if b.tag = g then some b.dst else none
  | none => none

/-- A message as a stub sends it on, if it is one that the stub takes (R378). -/
def State.forwarded (s : State) (m : Msg) : Option Msg :=
  match m with
  | .token t g p k => (s.stubAt t g).map fun d => .token d g p k
  | .slot t g p q u => match s.stubAt t g with
    | some d => some (.slot d g p q u)
    | none => if g = roleTag t then (s.tile t).port.stub.map fun b => .slot b.dst b.tag p q u else none
  | .mail t g i src id v r => (s.stubAt t g).map fun d => .mail d g i src id v r
  | .seam t g p src q v => (s.stubAt t g).map fun d => .seam d g p src q v
  | .dramReply t g p rq q row k => (s.stubAt t g).map fun d => .dramReply d g p rq q row k
  | .withdrawal t src => (s.tile t).port.stub.map fun b => .withdrawal b.dst src
  | _ => none

/-- STUB_FORWARD (R378): a message goes on in its place, so that what was sent behind it stays behind it. -/
def execStubForward (n : Nat) (s : State) : Host.Outcome State Fault Refusal :=
  match s.net[n]? with
  | some m => .next (match s.forwarded m with | some m' => { s with net := s.net.set n m' } | none => s)
  | none => .next s

/-- A seam as a token (R379): type 12, no payload, its source the producer that moved. -/
def seamToken (src : Tag) (sport : Nat) : Tok :=
  { kind := .seam, payload := 0, len := 0, stag := src, sport := sport, seq := 0, status := 0, row := 0, dreq := none, via := none }

/-- SEAM_ARRIVAL (R379): behind every token sent before it, the seam is removed and acknowledged; one whose arc ends at a link's endpoint
goes on to the other module, and one that came from there is acknowledged by that link. -/
def execSeamArrival (n : Nat) (s : State) : Host.Outcome State Fault Refusal :=
  match s.take n with
  | some (.seam t g p src q via, s') =>
    if earlierToken s.net n g p then .next s
    else if let some l := Tag.linkOf g then .next (s'.leaveByLink l g p (seamToken src q))
    else if !(s.tile t).place.live then .next s
    else if s.tileOf g = some t then
      .next (match via with | none => s'.post (.seamAck src q) | some l => s'.sendByLink l (portHeader src q 0 12) 0)
    else if s.isStub t g then .next s
    else .next (s'.discardAt t g)
  | _ => .next s

/-- SEAM_ACK (R379): the destination's output port is open again. -/
def execSeamAck (n : Nat) (s : State) : Host.Outcome State Fault Refusal :=
  match s.take n with
  | some (.seamAck src q, s') =>
    let clear (r : Rebalancer) : Rebalancer := { r with migration := r.migration.map fun m =>
      if m.tag = src then { m with seams := m.seams.filter (· != q) } else m }
    let s' : State := { s' with rebals := s'.rebals.map (fun (r : Nat × Rebalancer) => (r.1, clear r.2)) }
    .next (match s'.tileOf src with
      | some t => if (s'.outPort t q).seamed then s'.modOut t q fun o => { o with seamed := false } else s'
      | none => s')
  | _ => .next s

/-- A message that a stub is still to send on. -/
def State.stubOwes (s : State) (t : Nat) : Bool := s.net.any fun m => match s.forwarded m with
  | some _ => (match m with
    | .token u _ _ _ | .slot u _ _ _ _ | .mail u _ _ _ _ _ _ | .seam u _ _ _ _ _ | .dramReply u _ _ _ _ _ _ | .withdrawal u _ => u == t
    | _ => false)
  | none => false

/-- A MIGRATE that ordered a migration has its result (R383). -/
def State.migrated (s : State) (n : Nat) (m : Migration) (k : Nat) : State :=
  match m.by_ with
  | some u => s.bring u.1 (.migration n) (.word (word k))
  | none => s

/-- The end of a migration: the source leaves the chase, the actor's tiles cool, and a MIGRATE has its result (R374, R377 step 7, R383). -/
def State.closeMigration (s : State) (n : Nat) (m : Migration) (run : Choice) : State :=
  let s := s.leaveChase m.src
  let tiles : List Nat := match run.tiles.find? (·.tile == m.dst) with
    | some p => (run.tiles.filter fun (q : Placed) => q.actor == p.actor).map Placed.tile
    | none => []
  (s.modRebal n fun r => { r with
    migration := none
    cool := tiles.foldl (fun (c : Sparse Nat) t => c.set 0 t (rebalCool r.word)) r.cool
    windows := r.windows.erase m.src }).migrated n m 0

/-- STUB_CLOSE (R377 step 7). -/
def execStubClose (chase : Nat) (s : State) : Host.Outcome State Fault Refusal :=
  match (s.rebal chase).migration, s.runOf chase with
  | some m, some run =>
    .next (if m.step = 7 && m.debts.isEmpty && m.seams.isEmpty && !s.stubOwes m.src then s.closeMigration chase m run else s)
  | _, _ => .next s

/-- A migration ends as R380 states where a rollback, a loss or a shrink meets it: abandoned before step 5, and complete from then on;
`close` where the stub closes at once. -/
def State.endMigration (s : State) (n : Nat) (close : Bool) : State :=
  match (s.rebal n).migration, s.runOf n with
  | some m, some run =>
    if m.step < 5 then
      ((s.modPort m.src fun e => { e with frozen := false }).modRebal n fun r => { r with migration := none }).migrated n m 5
    else if close then
      (s.modPort m.dst fun e => { e with outputs := e.outputs.map fun o => (o.1, { o.2 with seamed := false }) }).closeMigration n m run
    else s
  | _, _ => s

/-- The migrations that have not come to step 5 and whose source or destination is lost are abandoned (R380). -/
def State.abandonAt (s : State) (t : Nat) : State :=
  s.rebals.foldl (fun s r => match r.2.migration with
    | some m => if m.step < 5 ∧ (m.src = t ∨ m.dst = t) then s.endMigration r.1 false else s
    | none => s) s

/-- A tile is dead (R380, R429): its chase is struck, and a migration that it has part in ends. -/
def State.loseTile (s : State) (t : Nat) : State := (s.strikeDead t).abandonAt t

/-- WATCHDOG (R449): three missed periods of 100 µs. -/
def execWatchdog (t dir : Nat) (s : State) : Host.Outcome State Fault Refusal :=
  match (s.tile t).clk.watch.find dir, neighbour t dir with
  | some w, some n =>
    .next (if !w.raised && decide (300000 ≤ w.counted) then
        ((s.modClk t fun k => { k with watch := k.watch.put dir { w with raised := true } }).notify t 0 .watchdog
          (infoT n 0 (w.counted / 100000))).loseTile n
      else s)
  | _, _ => .next s

/-! ## MIGRATE (R383) -/

/-- The member that a tag names in a chase's running placement (R383, code 1). -/
def State.memberOf (s : State) (n : Nat) (g : Tag) : Option Placed :=
  if Tag.kind g ≠ 1 then none
  else match s.tileOf g, s.runOf n with
    | some t, some run => run.tiles.find? (·.tile == t)
    | _, _ => none

/-- MIGRATE's refusals in their order, or the migration that it orders (R383). -/
def State.migrate (s : State) (u : Cur) (g : Tag) (b : Word) : Except Nat State :=
  if bits b 17 47 ≠ 0 then .error 6
  else match (s.tile u.tile).place.chase with
    | none => .error 1
    | some n =>
      match s.memberOf n g, s.runOf n with
      | some p, some run =>
        let w := word ((s.ccbGet (s.ccbOf n) 32 8).getD 0)
        if run.pinned p.actor then .error 2
        else if s.migrating n || (s.chase n).work != .none || (s.chase n).struck then .error 4
        else
          let d := if b.getLsbD 16 then s.destination n p.tile (w.getLsbD 25)
            else
              let t := tileAt (bits b 0 8) (bits b 8 8)
              if decide (bits b 0 8 < 160) && s.isDestination n p.tile (w.getLsbD 25) t then some t else none
          match d with
          | some d => .ok (s.orderMigration n p.tile d g (some (u.tile, u.core, u.ctx)))
          | none => .error 3
      | _, _ => .error 1

/-- MIGRATE (R383): its result is long-latency, and comes when the migration closes or is abandoned. -/
def execMigrate (o : Opnd) (s : State) : Host.Outcome State Fault Refusal :=
  meaning o .none (kernelOp (.migrate o) (.g [an o, bn o] [dn o]) fun s =>
    let u := s.cur
    match s.migrate u ((s.rg (an o)).setWidth 24) (s.rg (bn o)), (s.tile u.tile).place.chase with
    | .ok s, some n => (s.lg (dn o) (.migration n) o.len, .done)
    | .ok s, none => (s, .done)
    | .error k, _ => computeLong o (fun _ => word k) s) s

end Sys2Proof.Machine
end

