-- ==== Sys2Proof/Machine/Issue.lean ====
section
/-! DEFINITION. How a core issues: waits that are met, the context served next, fetching and its faults, forced switches, notices,
budgets, and the results that return (R31, R41, R45, R134 to R140, R172, R185 to R191). -/

namespace Sys2Proof.Machine

/-! ## Waits (R134) -/

/-- The binding of a stream unit that a context holds. -/
def State.held (s : State) (u : Cur) (unit : Nat) : Option Binding :=
  (s.bindingAt u.tile u.core unit).filter fun b => b.owner == u.ctx

/-- A context that is to be saved has no result in flight and no trap pending, and its stores are performed (R192, R402). -/
def State.saveReady (s : State) (u : Cur) : Bool := (s.ctx u).flights.isEmpty && (s.ctx u).pend.isNone && !s.outsideStores u

/-- A wait's condition is met, so that its instruction is executed again and completes or waits anew. Waits that end by an event of
their own are never met here. -/
def State.waitMet (s : State) (u : Cur) (w : Wait) : Bool :=
  let t := u.tile
  let k := s.ctx u
  let core := s.core t u.core
  let y := s.tile t
  match w with
  | .streamRead unit => (match s.held u unit with | some b => !b.buf.isEmpty | none => true)
  | .streamWrite unit => (match s.held u unit with | some b => !b.full (decide (8 ≤ unit)) | none => true)
  | .streamFree unit => (s.bindingAt t u.core unit).isNone
  | .streamFlush (some unit) => (match s.held u unit with | some b => s.canUnbind t u.core unit b | none => true)
  | .streamFlush none => (s.unitsOf u).all fun p => s.canUnbind t u.core p.1 p.2
  | .xlate va write _ _ => (y.eng.xnode.hit va write).isSome
  | .remote => y.eng.xnode.remote.all fun r => r.holder != u.holder || r.value.isSome
  | .quireBank q limit => decide ((s.quire t q).bank u.core < limit)
  | .quireClear q => s.quireIdle t q
  | .copyDone h n => (let c := s.channel t h; !outstanding c.done c.next n)
  | .copyQueue h => decide ((s.channel t h).queue.length < 8)
  | .matrixDone c n => (let q := (s.core t c).mq; !outstanding q.done q.next n)
  | .matrixQueue => decide (core.mq.cmds.length < 8)
  | .walk id => !core.walker.isOpen id
  | .walker => core.walker.idle && decide (core.walker.open_.length < 4)
  | .retire => s.retireRoom t u.core
  | .steal => (core.walker.answer.find u.ctx).isSome || core.walker.asking.isNone
  | .gangNext => !y.inGang u.core && (s.gangWaiter t u.core).isNone
  | .fence kind scope => s.fenceDone u kind scope
  | .send p => s.hasSlots t [p]
  | .recv p => (let d := s.inPort t p; !d.arc || d.head.isSome)
  | .dramSlots p n => (let o := s.outPort t p; decide (n ≤ o.slots) && !o.seamed)
  | .mailAnswer => !k.mailOpen
  | .mailFree => k.sender.notice.isSome || k.sender.listed.isNone
  | .shootdown => (match y.eng.xnode.shootOf u with | some l => l.isEmpty | none => true)
  | .results => k.pend.isNone && k.flights.isEmpty
  | .galley r => s.slotQuiet r
  | .drain => s.drainDone u
  | .keyLoad slot actor => !s.keyBusy slot actor
  | .ctxSave c x => s.saveReady ⟨t, c, x⟩
  | .notice b => k.flights.isEmpty && !core.npend.getLsbD b
  | .claim | .quireTurns _ _ | .quireNext _ _ | .event | .bar _ _ _ | .gang _ | .sleep _ | .doubleTrap | .saving => false

/-- A context whose wait is met, or whose last result has returned, becomes ready (R134). -/
def State.promote (s : State) (u : Cur) : State :=
  let k := s.ctx u
  match k.status with
  | .waiting w => if s.waitMet u w then s.modCtx u fun k => { k with status := .ready } else s
  | .parked => if k.flights.isEmpty then s.modCtx u fun k => { k with status := .ready } else s
  | .free | .ready | .running => s

/-- The contexts of a tile that may go on become ready; readable records go to the contexts that wait for them (R168). -/
def State.settle (s : State) (t : Nat) : State :=
  let s := [0, 1, 2, 3].foldl (fun s c => s.serveEvents t c) s
  (s.ctxList t).foldl (fun s u => s.promote u) s

/-! ## The context served next (R31, R170, R172) -/

/-- A context may issue: ready, or running in its switch group. -/
def Ctx.canIssue (k : Ctx) : Bool := k.status == .ready || k.status == .running

/-- Aged: 65,536 core cycles without an issue while ready (R31). -/
def Ctx.aged (k : Ctx) : Bool := decide (65536 ≤ k.waited)

/-- A member of a gang may issue for its gang: every member may, and none that is to catch up is passed over (R172). -/
def State.gangReady (s : State) (u : Cur) : Bool :=
  match (s.tile u.tile).gangOf u.core u.ctx with
  | none => true
  | some g =>
    (s.ctx u).behind ||
      g.members.all fun m => (s.ctx ⟨u.tile, m.1, m.2⟩).canIssue && !(s.ctx ⟨u.tile, m.1, m.2⟩).behind

/-- The contexts of a core that may issue, the one in its switch group apart. -/
def State.candidates (s : State) (t c : Nat) : List Cur :=
  ((s.ctxList t).filter fun u => decide (u.core = c) && (s.ctx u).canIssue && s.gangReady u)

/-- The class under which a context is served: 3 for an aged one, unless an aged group has been served since the last class-3 group and
a class-3 context is ready (R31). -/
def State.servedClass (s : State) (t c : Nat) (us : List Cur) (u : Cur) : Nat :=
  let n := s.effClass u
  if (s.ctx u).aged && !((s.core t c).issue.agedServed && us.any fun v => s.effClass v == 3) then 3 else n

/-- The better of two contexts: the higher class, and in a class the one that has stood longest in the rotation. -/
def State.better (s : State) (cls : Cur → Nat) (u v : Cur) : Bool :=
  decide (cls v < cls u) || (cls v == cls u && decide ((s.ctx u).since < (s.ctx v).since))

/-- The best of some contexts. -/
def State.best (s : State) (cls : Cur → Nat) : List Cur → Option Cur
  | [] => none
  | u :: us => match s.best cls us with
    | none => some u
    | some v => some (if s.better cls v u then v else u)

/-- The context that a core serves next, gangs of other cores not considered: the one in its switch group, or the best. -/
def State.serves (s : State) (t c : Nat) : Option Cur :=
  let us := s.candidates t c
  match (s.core t c).issue.current with
  | some x => if us.contains ⟨t, c, x⟩ then some ⟨t, c, x⟩ else s.best (s.servedClass t c us) us
  | none => s.best (s.servedClass t c us) us

/-- Every member core of a gang would serve it (R172). -/
def State.gangServed (s : State) (t : Nat) (g : Gang) : Bool :=
  g.members.all fun m => match s.serves t m.1 with
    | some v => v.ctx == m.2
    | none => false

/-- The context that issues in a core's next cycle: a gang issues through its leader, or a follower that is behind for itself; else the
best of the core's other contexts (R172). -/
def State.next (s : State) (t c : Nat) : Option Cur :=
  match s.serves t c with
  | none => none
  | some u =>
    match (s.tile t).gangOf u.core u.ctx with
    | none => some u
    | some g =>
      if (s.ctx u).behind then some u
      else if s.gangServed t g then g.members.head?.map fun m => ⟨t, m.1, m.2⟩
      else
        let us := (s.candidates t c).filter fun v => ((s.tile t).gangOf v.core v.ctx).isNone
        s.best (s.servedClass t c us) us

/-! ## Cycles (R31, R191) -/

/-- `n` core cycles for a context: its waiting count while ready, the cycles it spends stalled, and its budget at user privilege (R31,
R42, R191). -/
def Ctx.tick (n : Nat) (k : Ctx) : Ctx :=
  let k := if k.status = .ready then { k with waited := min 65536 (k.waited + n) } else k
  let k := if k.stalled && k.canIssue then { k with sys := { k.sys with ilock := k.sys.ilock + word n } } else k
  if k.status = .free ∨ k.trap.ts.priv then k
  else
    let total := k.bcycles + n
    { k with
      bcycles := total % 1024
      sys := { k.sys with hbudget := BitVec.ofNat 32 (k.sys.hbudget.toNat - min k.sys.hbudget.toNat (total / 1024)) } }

/-- `n` cycles of a core's clock: `%cyc` counts them, but for those after 64 idle cycles, when the clock is gated (R184, R447). -/
def Core.tick (n : Nat) (k : Core) : Core :=
  let rest := k.quiet
  let counted := if rest then min n (64 - k.issue.idle) else n
  let idle := if rest then min 64 (k.issue.idle + n) else 0
  { k with
    cyc := k.cyc + word counted
    issue := { k.issue with idle := idle, gated := rest && (k.issue.gated || idle == 64) }
    ctxs := k.ctxs.map fun p => (p.1, p.2.tick n) }

/-- `n` cycles of a core whose tile is asleep: its clock is gated, but budgets count at the rate of the current step (R191). -/
def Core.tickGated (n : Nat) (k : Core) : Core := { k with ctxs := k.ctxs.map fun p => (p.1, p.2.tick n) }

/-- CONTEXT_AGED (R31): the 65,536th cycle in which a ready context has not issued. -/
def execContextAged (t c x : Nat) (s : State) : Host.Outcome State Fault Refusal :=
  .next (s.modCtx ⟨t, c, x⟩ fun k => if k.status = .ready ∧ k.waited = 65535 then { k with waited := 65536 } else k)

/-! ## Notices, budgets and trap entries as steps (R185, R186, R191) -/

/-- TRAP_ENTRY (R186): the pending trap of a context whose last result has returned. -/
def execTrapEntry (t c x : Nat) (s : State) : Host.Outcome State Fault Refusal := .next (s.enterPending ⟨t, c, x⟩)

/-- The cause and `%einfo` of the notice that a core takes next. -/
def Core.dueNotice (k : Core) : Option (Nat × Cause × Word) :=
  k.nextNotice.bind fun b => (causeOfBit b).map fun c => (b, c, k.ninfo.get 0 b)

/-- A notice is no longer pending. -/
def Core.clearNotice (k : Core) (b : Nat) : Core :=
  { k with npend := k.npend &&& ~~~((1 : Word) <<< b), ninfo := k.ninfo.erase b }

/-- A notice enters the handler on a context of the core (R185, R186). -/
def State.takeNotice (s : State) (u : Cur) (b : Nat) (c : Cause) (info : Word) (alloc : Bool) : State :=
  let k := s.ctx u
  let e : Entry := { cause := c, info := info, epc := if alloc then 0 else k.pc, len := if alloc then 0 else lenAt (s.tile u.tile).x (xAddr k.pc)
                     skip := false, nr := false, notice := true, alloc := alloc }
  (s.modCore u.tile u.core (·.clearNotice b)).enter u e

/-- A context on which a notice may be taken (R185). -/
def State.takes (s : State) (u : Cur) : Bool :=
  (s.ctx u).trap.ts.te && ((s.tile u.tile).gangOf u.core u.ctx).isNone

/-- A wait that a notice may abandon: not that of an entry under way, or of a save (R185, R192). -/
def Wait.abandonable : Wait → Bool
  | .notice _ | .saving => false
  | _ => true

/-- The longest-waiting context of a core that may take a notice (R185 item 3). -/
def State.longestWaiting (s : State) (t c : Nat) : Option Cur :=
  (s.waitingOn t fun u w => decide (u.core = c) && w.abandonable && s.takes u && (s.ctx u).pend.isNone).head?

/-- A context is chosen for a notice: it takes it at once where no result is in flight, and else waits for its results (R186). -/
def State.chooseFor (s : State) (u : Cur) (b : Nat) (c : Cause) (info : Word) : State :=
  if (s.ctx u).flights.isEmpty then s.takeNotice u b c info false
  else ((s.leaveWait u).endGroup u).modCtx u fun k => { k with status := .waiting (.notice b), granted := false, stalled := false }

/-- A context of a core that has been chosen for a pending notice, and whose last result has returned. -/
def State.boundTaker (s : State) (t c : Nat) : Option (Cur × Nat) :=
  ((s.ctxList t).filterMap fun u => match (s.ctx u).waits with
    | some (.notice b) =>
      if u.core = c ∧ (s.ctx u).flights.isEmpty ∧ (s.core t c).npend.getLsbD b then some (u, b) else none
    | _ => none).head?

/-- A notice is taken on a free context (R185 item 2). -/
def State.noticeOnFree (s : State) (u : Cur) (b : Nat) (c : Cause) (info : Word) : State :=
  (s.allocate u .none 0 0 0 0 (s.tile u.tile).port.desc.mcap).takeNotice u b c info true

/-- The pending notice of a core is taken on the first context that qualifies (R185); one with results in flight first waits for them,
and the notice stays its own. None where no notice is pending or no context qualifies. -/
def State.serveNotice (s : State) (t c : Nat) : Option State :=
  match s.boundTaker t c with
  | some (u, b) => (causeOfBit b).map fun cause => s.takeNotice u b cause ((s.core t c).ninfo.get 0 b) false
  | none =>
    match (s.core t c).dueNotice with
    | none => none
    | some (b, cause, info) =>
      match (s.next t c).filter s.takes with
      | some u => some (s.chooseFor u b cause info)
      | none =>
        match s.freeCtxs t c with
        | x :: _ => some (s.noticeOnFree ⟨t, c, x⟩ b cause info)
        | [] => (s.longestWaiting t c).map fun u => s.chooseFor u b cause info

/-- A core may issue: the tile cores have been released, its tile is live, no spare, and awake, and no debug halt stands (R18, R447, R454,
R458). -/
def State.coreRuns (s : State) (t c : Nat) : Bool :=
  s.plat.root.phase == .released && (s.tile t).place.live && (s.tile t).place.working && !(s.tile t).clk.asleep && !(s.core t c).issue.halted

/-- TAKE_NOTICE (R185). -/
def execTakeNotice (t c : Nat) (s : State) : Host.Outcome State Fault Refusal :=
  .next (if s.coreRuns t c then ((s.settle t).serveNotice t c).getD s else s)

/-- A context's budget is spent at user privilege (R191). -/
def Ctx.spent (k : Ctx) : Bool := k.status != .free && !k.trap.ts.priv && k.sys.hbudget == 0 && k.pend.isNone

/-- The contexts that issue with a context: the members of a gang with its leader (R172). -/
def State.gangCtxs (s : State) (u : Cur) : List Cur :=
  match (s.tile u.tile).gangOf u.core u.ctx with
  | some g => if g.leads u.core u.ctx then g.members.map fun m => ⟨u.tile, m.1, m.2⟩ else [u]
  | none => [u]

/-- HANDLER_BUDGET of a context, with its `%einfo` (R191, R194). -/
def State.budgetTrap (s : State) (u : Cur) : State :=
  let k := s.ctx u
  let waits := k.waits.isSome
  s.raise u .handlerBudget (word (k.budget0.toNat + 2 ^ 32 * waits.toNat)) (lenAt (s.tile u.tile).x (xAddr k.pc))

/-- HANDLER_BUDGET (R191). -/
def execHandlerBudget (t c x : Nat) (s : State) : Host.Outcome State Fault Refusal :=
  let u : Cur := ⟨t, c, x⟩
  .next (if (s.ctx u).spent && (s.ctx u).status != .parked then s.budgetTrap u else s)

/-- TIMER (R181). -/
def execTimer (t c : Nat) (s : State) : Host.Outcome State Fault Refusal :=
  let k := s.core t c
  let deadline := bits k.ktimer 0 63
  if k.ktimer.getLsbD 63 && decide (deadline ≤ s.rtime t) then
    .next ((s.modCore t c fun k => { k with ktimer := k.ktimer &&& ~~~((1 : Word) <<< 63) }).notify t c .timer (word deadline))
  else .next s

/-! ## Results that return (R137, R140) -/

/-- A result may return: it has its value, and every earlier one for its register has returned; a data error waits for every earlier
result (R137, R140). -/
def mayReturn (fs : List Flight) (n : Nat) : Bool :=
  match fs[n]? with
  | none => false
  | some f =>
    let before := fs.take n
    match f.value with
    | .owed _ _ _ | .answer _ _ | .migration _ => false
    | .dataError _ _ => before.isEmpty
    | .word _ | .vec _ | .mask _ => before.all (·.dest != f.dest)

/-- A data error takes the place of a pending trap, which is younger (R138, R140). -/
def Ctx.dataFault (k : Ctx) (f : Flight) (c : Cause) (info : Word) : Ctx :=
  match k.pend with
  | some p => if p.nr then k else { k with pend := some ⟨c, info, f.epc, f.len, false, true⟩ }
  | none => { k with pend := some ⟨c, info, f.epc, f.len, false, true⟩ }

/-- RESULT_RETURN (R137, R140): the `n`-th result in flight of a context. -/
def State.resultReturn (s : State) (u : Cur) (n : Nat) : State :=
  let k := s.ctx u
  if !mayReturn k.flights n then s
  else match k.flights[n]? with
    | none => s
    | some f =>
      let drop (k : Ctx) : Ctx := { k with flights := k.flights.eraseIdx n }
      match f.value with
      | .dataError c info =>
        let s := s.leaveWait u
        let s := s.modCtx u fun k => { (drop k).dataFault f c info with granted := false, status := .waiting .results }
        (s.modCore u.tile u.core fun k =>
          { k with issue := { k.issue with current := if k.issue.current = some u.ctx then none else k.issue.current } }).enterPending u
      | _ => ((s.modCtx u drop).land u f).promote u

/-- RESULT_RETURN (R137). -/
def execResultReturn (t c x n : Nat) (s : State) : Host.Outcome State Fault Refusal := .next (s.resultReturn ⟨t, c, x⟩ n)

/-! ## Fetching (R45, R47, R52) -/

/-- What a core does in a cycle. -/
inductive Fetched where
  /-- no instruction issues: the state is what the cycle leaves -/
  | entered (s : State)
  /-- the instruction issues -/
  | run (i : Instr) (s : State)

/-- The words at the pc of a context. -/
def State.wordsAt (s : State) (u : Cur) : List Parcel := fetchWords (s.tile u.tile).x 5 (xAddr (s.ctx u).pc)

/-- The fault of the address that a context fetches from (R45), with its `%einfo` (R194). -/
def Ctx.fetchFault (k : Ctx) : Option (Cause × Word) :=
  let info := k.pcFrom.getD 0
  if k.pc.getLsbD 0 then some (.codeAlign, info)
  else if 0x20000 ≤ k.pc.toNat then some (.spaceRange, info)
  else none

/-- The trap of words that do not decode (R52, R187). -/
def decodeTrap : DecodeFault → Cause × Word × Nat
  | .empty => (.spaceRange, 0, 0)
  | .prefixChain info => (.prefixChain, info, 0)
  | .illegal info n => (.illegalEncoding, info, n)
  | .reserved info n => (.reservedNonzero, info, n)

/-- The context whose switch group another interrupts, as one of a gang that cannot issue, is ready: one context of a core runs (R134). -/
def State.displace (s : State) (u : Cur) : State :=
  match (s.core u.tile u.core).issue.current with
  | some x =>
    if x = u.ctx then s
    else s.modCtx ⟨u.tile, u.core, x⟩ fun k => if k.status = .running then { k with status := .ready, stalled := false } else k
  | none => s

/-- A context is chosen for the issue slot: its switch group begins, or goes on (R31). -/
def State.beginGroup (s : State) (u : Cur) : State :=
  let aged := (s.ctx u).aged && s.effClass u != 3
  let three := s.effClass u == 3
  let fresh := (s.core u.tile u.core).issue.current != some u.ctx
  let s := (s.displace u).modCtx u fun k => { k with status := .running, waited := 0, started := true }
  s.modCore u.tile u.core fun k => { k with issue := { k.issue with
    current := some u.ctx, idle := 0, gated := false
    agedServed := if !fresh then k.issue.agedServed else if aged then true else if three then false else k.issue.agedServed } }

/-- The forced switch (R41): the context goes to the back of its rotation, and `%fswitch` counts it. -/
def State.forceSwitch (s : State) (u : Cur) : State :=
  (s.endGroup u).modCtx u fun k => { k with status := .ready, sys := { k.sys with fswitch := k.sys.fswitch + 1 } }

/-- The uncorrectable unit of X that the words of the instruction at a context's pc meet (R106). -/
def State.badFetch (s : State) (u : Cur) : Option Nat :=
  let y := s.tile u.tile
  let a := xAddr (s.ctx u).pc
  badUnit id a (2 * chainLen y.x a) y.xbad

/-- A context with the issue slot fetches and decodes (R41, R45, R52). -/
def State.fetch (s : State) (u : Cur) : Fetched :=
  let k := s.ctx u
  match k.fetchFault with
  | some (c, i) => .entered (s.raise u c i 0)
  | none =>
    match s.badFetch u with
    | some unit => .entered (s.raise u .localEcc (infoM unit Space.x.code 1 false) 0)
    | none =>
      match decode (s.wordsAt u) with
      | .error e => (let t := decodeTrap e; .entered (s.raise u t.1 t.2.1 t.2.2))
      | .ok (i, n) => if 32 < k.words + n then .entered (s.forceSwitch u) else .run i (s.setCur u)

/-- FORCED_SWITCH (R41): of the context whose switch group is under way. -/
def execForcedSwitch (t c : Nat) (s : State) : Host.Outcome State Fault Refusal :=
  match (s.core t c).issue.current with
  | none => .next s
  | some x =>
    let u : Cur := ⟨t, c, x⟩
    match decode (s.wordsAt u) with
    | .ok (_, n) => .next (if (s.ctx u).status = .running ∧ 32 < (s.ctx u).words + n then s.forceSwitch u else s)
    | .error _ => .next s

/-- Single-stepping: the core halts again after one instruction, and raises DEBUG_HALT with code 2 (R458, R461). -/
def State.stepHalt (s : State) (t c : Nat) : State :=
  if (s.core t c).issue.stepping then
    (s.modCore t c fun k => { k with issue := { k.issue with stepping := false, halted := true } }).notify t c .debugHalt 2
  else s

/-- A turn of a core (R31): a notice, a spent budget, a fault of fetching or a forced switch, or the instruction that issues. -/
def State.issue (s : State) (t c : Nat) : Fetched :=
  if !s.coreRuns t c then .entered s
  else
    let s := s.settle t
    match s.serveNotice t c with
    | some s => .entered s
    | none =>
      match s.next t c with
      | none => .entered s
      | some u =>
        match (s.gangCtxs u).find? fun v => (s.ctx v).spent with
        | some v => .entered (s.budgetTrap v)
        | none => ((s.stepHalt t c).beginGroup u).fetch u

end Sys2Proof.Machine
end

