-- ==== Sys2Proof/Machine/Kernel.lean ====
section
/-! DEFINITION. The micro-kernel's instructions: ENGRD and ENGWR with the control items of the engines, QUOINRD, KLOAD, CTXSAVE and
CTXLOAD (R401 to R407). -/

namespace Sys2Proof.Machine

/-! ## Control items (R405) -/

/-- Where a word written to a held unit is kept. -/
def writtenKey (e u i w : Nat) : Nat := ((e * 256 + u) * 256 + i) * 65536 + w

/-- An item's words with those that ENGWR has written. -/
def State.overlaid (s : State) (t e u i : Nat) (ws : List Word) : List Word :=
  ws.mapIdx fun w v => ((s.tile t).eng.written.find (writtenKey e u i w)).getD v

/-- The items of a unit with what ENGWR has written to them. -/
def State.writtenTo (s : State) (t e u : Nat) : Written :=
  { item := fun i => match s.itemWords t e u i with | some ws => s.overlaid t e u i ws | none => []
    wrote := fun i w => ((s.tile t).eng.written.find (writtenKey e u i w)).isSome }

/-- What ENGWR has written to a unit takes effect: a copy channel or a matrix queue as a whole, any other unit item by item. -/
def State.applyWritten (s : State) (t e u : Nat) : State :=
  let mine (p : Nat × Word) : Bool := p.1 / 2 ^ 24 == e * 256 + u
  let items := (((s.tile t).eng.written.filter mine).map fun p => p.1 / 65536 % 256).eraseDups
  let w := s.writtenTo t e u
  let s :=
    if items.isEmpty then s
    else if e = 1 ∧ u < 8 then s.rebuildChannel t u w
    else if e = 5 ∧ u < 4 then s.rebuildMq t u w
    else items.foldl (fun s i => match s.itemWords t e u i with
      | some ws => s.setItemWords t e u i (s.overlaid t e u i ws)
      | none => s) s
  s.modEng t fun y => { y with written := y.written.filter fun p => !mine p }

/-- The stream unit of a unit number of the copy and stream engine: core and unit. -/
def streamOf (u : Nat) : Nat × Nat := ((u - 0x40) / 16, u % 16)

/-- A unit number of the copy and stream engine names a stream unit. -/
def isStreamUnit (u : Nat) : Bool := decide (0x40 ≤ u) && decide (u < 0x80)

/-- The engines that the tiles share: the galley service, and the Ethernet ports and links (R20). -/
def sharedEngine (e : Nat) : Bool := e == 9 || e == 0xD

/-- A unit of the table of R404. -/
def unitExists (e u : Nat) : Bool :=
  match e with
  | 1 => decide (u < 8) || isStreamUnit u || (decide (0x80 ≤ u) && decide (u < 0x8D))
  | 2 | 4 => decide (u < 4)
  | 3 => decide (u < 8)
  | 5 => decide (u < 4) || u == 0x10
  | 6 => decide (u ≤ 0x20) || isStreamUnit u
  | 7 | 8 | 0xB => u == 0
  | 9 => decide (u ≤ 0x81)
  | 0xD => decide (u < 4) || (decide (0x10 ≤ u) && decide (u ≤ 0x20))
  | _ => false

/-- A unit's hold is set or cleared, and with it the hold that its engine keeps. -/
def State.setHold (s : State) (t e u : Nat) (on : Bool) : State :=
  let n := 256 * e + u
  let put (l : List Nat) : List Nat := if on then (if l.contains n then l else n :: l) else l.filter (· != n)
  let s := if sharedEngine e then { s with plat := { s.plat with holds := put s.plat.holds } }
    else s.modEng t fun y => { y with holds := put y.holds }
  match e with
  | 1 =>
    if u < 8 then s.modChannel t u fun k => { k with held := on }
    else if isStreamUnit u then s.modBinding t (streamOf u).1 (streamOf u).2 fun b => { b with held := on }
    else s
  | 2 => if u < 4 then s.modWalker t u fun w => { w with saving := on } else s
  | 5 => if u < 4 then s.modMq t u fun q => { q with held := on } else s
  | 6 => s.modPort t fun p => { p with held := (s.tile t).eng.holds.any fun k => k / 256 == 6 }
  | 9 => if u < 0x80 then s.modSlot u fun k => { k with stopped := on } else s
  | 0xD => (List.range 16).foldl (fun s l => if on then s else s.drainLink l id) s
  | _ => s

/-- The withheld access of a unit: its identifier. -/
def State.withheldId (s : State) (t e u : Nat) : Option (BitVec 32) :=
  match e with
  | 1 =>
    if u < 8 then (let k := s.channel t u; if k.fault.isSome then k.queue.head?.map (·.ident) else none)
    else if isStreamUnit u then
      (s.bindingAt t (streamOf u).1 (streamOf u).2).bind fun b => if b.fault.isSome then some b.ident else none
    else none
  | 5 => if u < 4 then (let q := (s.core t u).mq; if q.fault.isSome then q.cmds.head?.map (·.ident) else none) else none
  | 7 => if u = 0 then ((s.tile t).eng.xnode.held.find? (·.engine == nodeEngine)).map (·.ident) else none
  | 9 => if u < 0x80 then (let k := s.slotAt u; if k.fault.isSome then some (s.galley k.galley).head else none) else none
  | 0xD => if u < 4 then (s.eth u).held.head?.map fun h => BitVec.ofNat 32 h.1 else none
  | _ => none

/-- A held unit has come to its clean point: a walker once every coordinate in flight is held in a trap or by no context (R251), an
engine that stops between its steps at once. -/
def State.atCleanPoint (s : State) (t e u : Nat) : Bool :=
  match e with
  | 2 => (match (s.walker t u).piece with
    | some p => p.flying.all fun f => match f.2.ctx with | some x => (s.ctx ⟨t, u, x⟩).trap.ts.intrap | none => true
    | none => true)
  | _ => true

/-- The control item as ENGRD returns it. -/
def State.controlWord (s : State) (t e u : Nat) : Word :=
  let hold := if sharedEngine e then s.moduleHeld e u else s.unitHeld t e u
  let w := s.withheldId t e u
  word ((hold || w.isSome).toNat + 2 * w.isSome.toNat + 4 * (hold && s.atCleanPoint t e u).toNat
    + 2 ^ 32 * (match w with | some i => i.toNat | none => 0))

/-- The translation node forgets the held access of an engine's channel. -/
def State.dropHeld (s : State) (t e u : Nat) : State :=
  s.modXnode t fun x => { x with held := x.held.filter fun h => !(h.engine == e && h.chan == u) }

/-- The oldest held request of the translation node is no longer held. -/
def Xnode.dropFirst (x : Xnode) : Xnode :=
  match x.held.find? (·.engine == nodeEngine) with
  | some h => { x with held := x.held.erase h }
  | none => x

/-- Hold (command 1): the unit stops at its clean point. -/
def State.holdUnit (s : State) (t e u : Nat) : State := s.setHold t e u true

/-- Release (command 2): the unit resumes from the state as written. -/
def State.releaseUnit (s : State) (t e u : Nat) : State :=
  let s := (s.applyWritten t e u).setHold t e u false
  if e = 7 then s.pump t else s

/-- The access that a unit withholds is to be retried. -/
def State.retryUnit (s : State) (t e u : Nat) : State :=
  match e with
  | 1 =>
    let s := s.dropHeld t e u
    if u < 8 then s.modChannel t u fun k => { k with fault := none }
    else if isStreamUnit u then s.modBinding t (streamOf u).1 (streamOf u).2 fun b => { b with fault := none }
    else s
  | 5 => if u < 4 then (s.dropHeld t e u).modMq t u fun q => { q with fault := none } else s
  | 7 => (s.modXnode t Xnode.dropFirst).pump t
  | 9 => if u < 0x80 then s.modSlot u fun k => { k with fault := none } else s
  | 0xD => if u < 4 then s.resumeRing u else s
  | _ => s

/-- Resume (command 3): the replay generation is raised (R361), and the withheld access retried. -/
def State.resumeUnit (s : State) (t e u : Nat) (g : BitVec 32) : State :=
  ((s.applyWritten t e u).modXnode t (·.raise g)).retryUnit t e u

/-- The status with which an engine's withheld access is abandoned: the cause of R213 or R312. -/
def abandoned (c : Cause) (f : Nat × Cause) : Ending := ⟨causeStatus c, faultDetail f.1 f.2⟩

/-- Abandon (command 4): the withheld access ends with the status of its engine (R213, R225, R312, R364, R396). -/
def State.abandonUnit (s : State) (t e u : Nat) : State :=
  let s := s.applyWritten t e u
  match e with
  | 1 =>
    if u < 8 then
      match (s.channel t u).fault with
      | some f => (s.dropHeld t e u).modChannel t u fun k => { k with fault := none, ending := some (abandoned .copyFault f) }
      | none => s
    else if isStreamUnit u then
      match (s.bindingAt t (streamOf u).1 (streamOf u).2).bind (·.fault) with
      | some _ => (s.dropHeld t e u).cancelBinding t (streamOf u).1 (streamOf u).2
      | none => s
    else s
  | 5 =>
    if u < 4 then
      match (s.core t u).mq.fault with
      | some f => (s.dropHeld t e u).modMq t u fun q => { q with fault := none, ending := some (abandoned .matrixOperand f) }
      | none => s
    else s
  | 7 =>
    let x := (s.tile t).eng.xnode
    match x.held.find? (·.engine == nodeEngine) with
    | none => s
    | some h =>
      match (headRequests [] x.dreqs).find? (·.port == h.chan) with
      | some r => ((s.modXnode t fun x => { x.dropFirst with dreqs := dropHead h.chan x.dreqs }).replyAll r (causeStatus h.cause)).pump t
      | none => s.modXnode t Xnode.dropFirst
  | 9 => if u < 0x80 then s.abandonSlot u else s
  | 0xD => if u < 4 then s.abandonRing u else s
  | _ => s

/-- The transfers of a channel that are due to complete do so, at most `n`. -/
def State.completeCopies (t h : Nat) : Nat → State → State
  | 0, s => s
  | n + 1, s => match (s.channel t h).outcome with
    | some e => if s.copyDue t h then State.completeCopies t h n (s.copyComplete t h e) else s
    | none => s

/-- The commands of a queue that are due to complete do so, at most `n`. -/
def State.completeCommands (t c : Nat) : Nat → State → State
  | 0, s => s
  | n + 1, s => match (s.core t c).mq.cmds, (s.core t c).mq.outcome with
    | m :: _, some e => if s.bankRoom t m.tag m.quire 12 then State.completeCommands t c n (s.matrixComplete t c m e) else s
    | _, _ => s

/-- Cancel (command 5): every queued operation completes with status 0x4000 (R215, R314). -/
def State.cancelUnit (s : State) (t e u : Nat) : State :=
  let s := s.applyWritten t e u
  match e with
  | 1 =>
    if u < 8 then
      let s := State.completeDropped t u (s.channel t u).dropped (s.dropHeld t e u)
      let s := s.modChannel t u fun k => { k with
        queue := k.queue.map fun r => { r with cancel := true }
        fault := none
        ending := none }
      State.completeCopies t u 8 s
    else if isStreamUnit u then (s.dropHeld t e u).cancelBinding t (streamOf u).1 (streamOf u).2
    else s
  | 5 =>
    if u < 4 then
      let s := State.completeLeft t u (s.core t u).mq.dropped (s.dropHeld t e u)
      let s := s.modMq t u fun q => { q with
        cmds := q.cmds.map fun m => { m with cancel := true }
        fault := none
        ending := none }
      State.completeCommands t u 8 s
    else s
  | _ => s

/-- ENG_HOLD (R405). -/
def execEngHold (t engine unit : Nat) (s : State) : Host.Outcome State Fault Refusal := .next (s.holdUnit t engine unit)

/-- ENG_RELEASE (R405). -/
def execEngRelease (t engine unit : Nat) (s : State) : Host.Outcome State Fault Refusal := .next (s.releaseUnit t engine unit)

/-- ENG_RESUME (R361, R405). -/
def execEngResume (t engine unit : Nat) (gen : BitVec 32) (s : State) : Host.Outcome State Fault Refusal :=
  .next (s.resumeUnit t engine unit gen)

/-- ENG_ABANDON (R405). -/
def execEngAbandon (t engine unit : Nat) (s : State) : Host.Outcome State Fault Refusal := .next (s.abandonUnit t engine unit)

/-- ENG_CANCEL (R405). -/
def execEngCancel (t engine unit : Nat) (s : State) : Host.Outcome State Fault Refusal := .next (s.cancelUnit t engine unit)

/-! ## ENGRD and ENGWR (R404) -/

/-- The fields of a selector: engine, unit, item, word. -/
def selEngine (a : Word) : Nat := bits a 0 8
def selUnit (a : Word) : Nat := bits a 8 8
def selItem (a : Word) : Nat := bits a 16 8
def selWord (a : Word) : Nat := bits a 24 16

/-- Before a write binding is read, its open round is committed (R227). -/
def State.beforeRead (s : State) (t e u i : Nat) : State :=
  if e = 1 ∧ isStreamUnit u ∧ i = 0 then
    let c := (streamOf u).1
    let n := (streamOf u).2
    match s.bindingAt t c n with
    | some b => if b.write ∧ !b.open_.isEmpty then (match s.commitRound t c n b with | (s', none) => s' | (_, some _) => s) else s
    | none => s
  else s

/-- A word of engine state (R404). -/
def State.engWord (s : State) (t e u i w : Nat) : Word :=
  if i = 0xFF then (if unitExists e u then s.controlWord t e u else 0)
  else if e = 9 then s.serviceWord u i w
  else if e = 0xB then
    if u ≠ 0 then 0
    else if i = 0 then (if w < 256 then (s.tile t).clk.trace.get 0 w else 0)
    else if i = 1 then wd (s.tile t).clk.plan w
    else 0
  else if e = 0xD then s.ethWord u i w
  else match s.itemWords t e u i with
    | some ws => wd (s.overlaid t e u i ws) w
    | none => 0

/-- A control command (R405). -/
def State.command (s : State) (t e u : Nat) (v : Word) : State :=
  match bits v 0 8 with
  | 1 => s.holdUnit t e u
  | 2 => s.releaseUnit t e u
  | 3 => s.resumeUnit t e u ((v >>> 32).setWidth 32)
  | 4 => s.abandonUnit t e u
  | 5 => s.cancelUnit t e u
  | _ => s

/-- A word of engine state written (R404). -/
def State.setEngWord (s : State) (t e u i w : Nat) (v : Word) : State :=
  if i = 0xFF then (if unitExists e u then s.command t e u v else s)
  else if e = 9 then s.setServiceWord u i w v
  else if e = 0xD then s.setEthWord u i w v
  else match s.itemWords t e u i with
    | some ws =>
      if s.unitHeld t e u && decide (w < ws.length) then
        s.modEng t fun y => { y with written := y.written.put (writtenKey e u i w) v }
      else s
    | none => s

/-- ENGRD (R404). -/
def execEngrd (o : Opnd) (s : State) : Host.Outcome State Fault Refusal :=
  meaning o .none (kernelOp (.engrd o) (.g [an o] [dn o]) fun s =>
    let a := s.rg (an o)
    let t := s.cur.tile
    computeLong o (fun s => s.engWord t (selEngine a) (selUnit a) (selItem a) (selWord a))
      (s.beforeRead t (selEngine a) (selUnit a) (selItem a))) s

/-- ENGWR (R404). -/
def execEngwr (o : Opnd) (s : State) : Host.Outcome State Fault Refusal :=
  meaning o .none (kernelOp (.engwr o) (.g [an o, bn o] []) fun s =>
    let a := s.rg (an o)
    (s.setEngWord s.cur.tile (selEngine a) (selUnit a) (selItem a) (selWord a) (s.rg (bn o)), .done)) s

/-! ## QUOINRD and KLOAD (R406, R407) -/

/-- A word of a quoin entry (R406). -/
def Quoin.word (q : Quoin) (second : Bool) : Word :=
  if second then Machine.word (q.engine + 2 ^ 8 * q.chan + 2 ^ 32 * q.ident.toNat)
  else Machine.word (q.base % 2 ^ 20 + 2 ^ 20 * q.len + 2 ^ 41 * q.space.code + 2 ^ 44 * q.core + 2 ^ 46 * q.dst.toNat + 2 ^ 47 + 2 ^ 48 * q.issuer)

/-- QUOINRD (R406): an entry that is free reads zero. -/
def execQuoinrd (o : Opnd) (s : State) : Host.Outcome State Fault Refusal :=
  meaning o .none (kernelOp (.quoinrd o) (.g [an o] [dn o]) fun s =>
    let a := s.rg (an o)
    computeLong o (fun s => match s.myTile.eng.quoins.find (bits a 0 5) with
      | some q => q.word (a.getLsbD 5)
      | none => 0) s) s

/-- KLOAD (R407). One that an invasive debug grant found accepted has loaded its key, which the grant then cleared (R459). -/
def execKload (o : Opnd) (s : State) : Host.Outcome State Fault Refusal :=
  meaning o .none (kernelOp (.kload o) (.g [an o, bn o] [dn o]) fun s =>
    let a := s.rg (an o)
    let b := (s.rg (bn o)).toNat
    let slot := bits a 0 10
    let n := bits a 10 7
    let actors := actorsOf n
    let set (f : Sparse (BitVec 512) → Sparse (BitVec 512)) (s : State) : State :=
      actors.foldl (fun s n => s.modActor n fun d => { d with keys := f d.keys }) s
    if bits a 18 46 ≠ 0 ∨ (96 ≤ n ∧ n ≠ 127) then computeLong o (fun _ => 1) s
    else if (s.ctx s.cur).granted then computeLong o (fun _ => 0) s
    else if s.plat.root.keysLocked then computeLong o (fun _ => 2) s
    else if a.getLsbD 17 then
      if s.keyBusy slot n then (s, .wait (.keyLoad slot n)) else computeLong o (fun _ => 0) (set (·.erase slot) s)
    else match s.areaFault b 64 64 false with
      | some (c, i) => (s, .trap c i)
      | none =>
        match s.badLocal s.cur.tile s.cur.core .t s.myKey b 64 with
        | some u => (s, .trap .localEcc (infoM u 0 3 false))
        | none =>
          if s.keyBusy slot n then (s, .wait (.keyLoad slot n))
          else computeLong o (fun _ => 0)
            (set (·.put slot (BitVec.ofNat 512 (s.readLocal s.cur.tile s.cur.core .t s.myKey b 64))) s)) s

/-! ## CTXSAVE (R401, R402) -/

/-- Kind of a context's handler in its save area (R401). -/
def Handler.kind : Handler → Nat
  | .firing _ => 0
  | .item _ _ => 1
  | .mail _ _ _ _ _ _ => 2
  | .none => 3

/-- The mail words of a save area: sender, reply asked for and sent; identifier (R401). -/
def State.mailArea (s : State) (u : Cur) : Nat × Nat :=
  match (s.ctx u).handler with
  | .mail t c _ _ _ i =>
    let r := (s.tile u.tile).port.replies.find? fun r => r.core == u.core && r.ctx == u.ctx
    ((s.tileTag t).toNat + 2 ^ 24 * c + 2 ^ 26 * r.isSome.toNat + 2 ^ 27 * (match r with | some r => r.sent | none => false).toNat,
      i.toNat)
  | .none | .firing _ | .item _ _ => (0, 0)

/-- The item word of a save area (R401): index, in-flight entry, valid. -/
def State.itemArea (s : State) (u : Cur) : Nat :=
  match (s.walker u.tile u.core).piece.bind (·.held u.ctx) with
  | some (e, k) => k.index + 2 ^ 40 * e + 2 ^ 42
  | none => 0

/-- The save area of a context, as words of 8 bytes (R401). -/
def State.saveArea (s : State) (u : Cur) : List Word :=
  let k := s.ctx u
  let m := s.mailArea u
  let loop (i : Nat) : List Word := match k.loops[i]? with
    | some l => [word (l.start.toNat % 2 ^ 17 + 2 ^ 32 * (l.stop.toNat % 2 ^ 17)), word l.remaining]
    | none => [0, 0]
  [word (1 + 2 ^ 8 * k.handler.kind + 2 ^ 10 * u.core + 2 ^ 12 * u.ctx + 2 ^ 16 * k.loops.length), k.pc] ++
    (List.range 4).flatMap loop ++
    ((List.range 4).map (s.readSys u)) ++ ((List.range 4).map fun i => s.readSys u (5 + i)) ++
    ((List.range 5).map fun i => s.readSys u (0x10 + i)) ++ ((List.range 3).map fun i => s.readSys u (0x18 + i)) ++
    [word m.1, word m.2, word (s.itemArea u), 0, 0, 0] ++
    ((List.range 64).map k.g) ++
    ((List.range 8).flatMap fun i => wordsOf 2 (k.k i).toNat) ++ padTo 16 [] ++
    ((List.range 32).flatMap fun i => wordsOf 16 (k.v i).toNat)

/-- A saved context is freed: its sender withdraws; its firing, its coordinate and its engine operations stay (R402). -/
def State.vacate (s : State) (u : Cur) : State :=
  let s := s.withdraw u none
  let s := s.modPort u.tile fun e => { e with firing := e.firing.map fun f =>
    if f.core = u.core ∧ f.ctx = u.ctx then { f with ctx := 16 } else f }
  let s := s.modWalker u.tile u.core fun w => { w with piece := w.piece.map fun p =>
    { p with flying := p.flying.map fun f => if f.2.ctx = some u.ctx then (f.1, { f.2 with ctx := none }) else f } }
  ((s.leaveTo u (savedNumber u.ctx)).endGroup u).modCtx u Ctx.freed

/-- A context is stopped to be saved: its gang breaks and its wait is abandoned (R174, R187, R192). -/
def State.stopForSave (s : State) (u : Cur) : State :=
  let s := match (s.tile u.tile).gangOf u.core u.ctx with
    | some _ => s.breakGang u 0 2
    | none => s
  ((s.leaveWait u).endGroup u).modCtx u fun k => { k with
    status := .waiting .saving
    granted := false
    stalled := false
    behind := false
    ahead := false }

/-- CTXSAVE (R402). -/
def execCtxsave (o : Opnd) (s : State) : Host.Outcome State Fault Refusal :=
  meaning o .none (kernelOp (.ctxsave o) (.g [an o, bn o] [dn o]) fun s =>
    let a := s.rg (an o)
    let b := (s.rg (bn o)).toNat
    let u : Cur := ⟨s.cur.tile, bits a 4 2, bits a 0 4⟩
    match s.areaFault b 5120 128 true with
    | some (c, i) => (s, .trap c i)
    | none =>
      if u = s.cur then computeLong o (fun _ => 2) s
      else if (s.ctx u).status = .free then computeLong o (fun _ => 1) s
      else
        let s := if (s.ctx u).status = .waiting .saving then s else s.stopForSave u
        if !s.saveReady u then (s, .wait (.ctxSave u.core u.ctx))
        else computeLong o (fun _ => 0) ((s.writeLocal u.tile 0 .t noKey b 5120 (natOfWords (s.saveArea u))).vacate u)) s

/-! ## CTXLOAD (R403) -/

/-- A save area whose version, depth or zero fields are not as R401 says. -/
def areaBad (v : Nat) : Bool :=
  let h := word (field v 0 8)
  bits h 0 8 != 1 || decide (4 < bits h 16 3) || bits h 19 45 != 0 || field v 208 8 / 2 ^ 28 != 0 || field v 896 128 != 0

/-- The registers of a save area. -/
def areaRegs (v : Nat) : Regs :=
  { g := (List.range 64).foldl (fun (m : Sparse Word) i => if i = 0 then m else m.set 0 i (word (field v (256 + 8 * i) 8))) []
    v := (List.range 32).foldl (fun (m : Sparse VWord) i => m.set 0 i (BitVec.ofNat 1024 (field v (1024 + 128 * i) 128))) []
    k := (List.range 8).foldl (fun (m : Sparse KWord) i => m.set 0 i (BitVec.ofNat 128 (field v (768 + 16 * i) 16))) [] }

/-- The handler that a loaded context continues. -/
def State.areaHandler (s : State) (u : Cur) (v : Nat) : Handler :=
  let m := word (field v 208 8)
  match bits (word (field v 0 8)) 8 2 with
  | 0 => .firing (match (s.tile u.tile).port.firing with | some f => f.entry.toNat | none => 0)
  | 1 =>
    let w := word (field v 224 8)
    .item (match (s.walker u.tile u.core).piece with | some p => p.walk.toNat | none => 0) (if w.getLsbD 42 then some (bits w 0 40) else none)
  | 2 => .mail ((s.tileOf (m.setWidth 24)).getD 0xFFFFFF) (bits m 24 2) 0 0 0 (BitVec.ofNat 32 (field v 216 4))
  | _ => .none

/-- The context that a save area describes. -/
def State.areaCtx (s : State) (u : Cur) (v : Nat) (ticket : Nat) : Ctx :=
  let sys (i : Nat) : Word := word (field v (80 + 8 * i) 8)
  let ts := sys 3
  let loop (i : Nat) : LoopEntry :=
    let w := word (field v (16 + 16 * i) 8)
    ⟨word (bits w 0 17), word (bits w 32 17), field v (24 + 16 * i) 8⟩
  { Ctx.reset with
    status := .ready
    started := true
    handler := s.areaHandler u v
    regs := areaRegs v
    trap := {
      cause := (sys 0).setWidth 6
      epc := (sys 1).setWidth 17
      einfo := sys 2
      ts := { TState.reset.write ts with priv := ts.getLsbD 0 }
      ksave := (List.range 4).foldl (fun (m : Sparse Word) i => m.set 0 i (sys (4 + i))) [] }
    sys := {
      cls := (sys 8).setWidth 2
      cap := ((sys 8) >>> 2).setWidth 2
      hbudget := (sys 9).setWidth 32
      bkey := (sys 10).setWidth 56
      ilock := sys 11
      fswitch := sys 12
      fflags := (sys 13).setWidth 7
      fmode := (sys 14).setWidth 3
      mstat := sys 15 &&& 0x77 }
    pc := word (field v 8 8)
    loops := (List.range (bits (word (field v 0 8)) 16 3)).map loop
    budget0 := (sys 9).setWidth 32
    since := ticket }

/-- A loaded context continues its firing, its coordinate or its duty to reply, and the engine operations that stayed for it are its own
(R402, R403). -/
def State.rejoin (s : State) (u : Cur) (v : Nat) : State :=
  let h := word (field v 0 8)
  let s := s.reissue u.tile ⟨bits h 10 2, savedNumber (bits h 12 4)⟩ ⟨u.core, u.ctx⟩
  let m := word (field v 208 8)
  let w := word (field v 224 8)
  match bits h 8 2 with
  | 0 => s.modPort u.tile fun e => { e with firing := e.firing.map fun f => { f with core := u.core, ctx := u.ctx } }
  | 1 =>
    if w.getLsbD 42 then
      s.modWalker u.tile u.core fun k => { k with piece := k.piece.map fun p =>
        { p with flying := p.flying.map fun f => if f.1 = bits w 40 2 then (f.1, { f.2 with ctx := some u.ctx }) else f } }
    else s
  | 2 =>
    if m.getLsbD 26 then
      s.modPort u.tile fun e => { e with
        replies := e.replies ++ [⟨u.core, u.ctx, (s.tileOf (m.setWidth 24)).getD 0xFFFFFF, bits m 24 2, BitVec.ofNat 32 (field v 216 4), m.getLsbD 27⟩] }
    else s
  | _ => s

/-- CTXLOAD (R403). -/
def execCtxload (o : Opnd) (s : State) : Host.Outcome State Fault Refusal :=
  meaning o .none (kernelOp (.ctxload o) (.g [an o, bn o] [dn o]) fun s =>
    let a := s.rg (an o)
    let b := (s.rg (bn o)).toNat
    let u : Cur := ⟨s.cur.tile, bits a 4 2, bits a 0 4⟩
    match s.areaFault b 5120 128 false with
    | some (c, i) => (s, .trap c i)
    | none =>
      match s.badLocal u.tile 0 .t noKey b 5120 with
      | some unit => (s, .trap .localEcc (infoM unit 0 3 false))
      | none =>
        let v := s.readLocal u.tile 0 .t noKey b 5120
        let h := word (field v 0 8)
        if !(s.freeCtxs u.tile u.core).contains u.ctx then computeLong o (fun _ => 1) s
        else if areaBad v then computeLong o (fun _ => 2) s
        else if bits h 8 2 < 2 ∧ bits h 10 2 ≠ u.core then computeLong o (fun _ => 3) s
        else
          let tk := s.ticket
          computeLong o (fun _ => 0) ((s.drawTicket.modCtx u fun _ => s.areaCtx u v tk).rejoin u v)) s

end Sys2Proof.Machine
end

