-- ==== Sys2Proof/Machine/Rollback.lean ====
section
/-! DEFINITION. Proof cuts, input logs and rollback (chapter 16 of spec/, R426 to R432). -/

namespace Sys2Proof.Machine

/-! ## Input logs (R428) -/

/-- A log entry (R428): header, payload, the reference time at sending, and zeros. -/
def logEntry (k : Tok) (dst : Tag) (dport time : Nat) : Nat := k.header dst dport + 2 ^ 128 * k.body + 2 ^ 1152 * (time % 2 ^ 64)

/-- The bytes of each input log of a chase; 0 where none is kept. -/
def State.logSize (s : State) (n : Nat) : Nat := (s.ccbGet (s.ccbOf n) 104 4).getD 0

/-- D address of entry e of the log of input i of a chase (R428). -/
def State.logAddr (s : State) (n i e : Nat) : Nat :=
  (s.ccbGet (s.ccbOf n) 96 8).getD 0 + s.logSize n * i + 256 * (e % max 1 (s.logSize n / 256))

/-- The tile that a forme input's tokens leave from (R390). -/
def State.inputTile (s : State) (k : FormeInput) : Nat := (s.serviceTile k.zone).getD 0

/-- A token is logged and then sent into a forme input (R426, R428); or nothing, where its ring is full or its log cannot be written. -/
def State.logSend (s : State) (n i : Nat) (kind : TokKind) (payload : Token) (len : Nat) : Option State :=
  match s.input n i with
  | none => none
  | some k =>
    let size := s.logSize n
    if size = 0 then some (s.feed n i kind payload len)
    else if size / 256 ≤ k.logNext - k.logFirst then none
    else
      let t := s.inputTile k
      let tok := s.inputToken k kind payload len
      match s.chaseWrite t 2 (s.ccbOf n) (s.logAddr n i k.logNext) 256 (logEntry tok k.tag k.port (s.rtime t)) with
      | (_, .error _) => none
      | (s, .ok _) => some ((s.modInput n i fun k => { k with logNext := k.logNext + 1 }).feed n i kind payload len)

/-- The proof mark that follows every pint-th level-0 colophon of an input (R426). -/
def State.logMark (s : State) (n i : Nat) : Option State :=
  match s.input n i with
  | none => none
  | some k =>
    let pint := (s.ccbGet (s.ccbOf n) 80 4).getD 0
    let count := k.colophons + 1
    if pint = 0 then some s
    else if count % pint ≠ 0 then some (s.modInput n i fun k => { k with colophons := count })
    else
      let cut := k.cut + 1
      (s.logSend n i (.proof cut) 0 1).map fun s => s.modInput n i fun j =>
        { j with colophons := 0, cut := cut, marks := j.marks.put cut.toNat k.logNext }

/-! ## Proof steps and cuts (R328, R426, R427) -/

/-- A port's part of a proof area (R344, R427): its resident sticky token, its uses left, its sealed flag with the level. -/
def InPort.proofWords (d : InPort) (dst : Tag) (dport : Nat) : List Word :=
  let tok : Option Tok := if d.uses.isSome then d.queue.head? else none
  (match tok with | some k => k.words dst dport | none => padTo 18 []) ++
    [Machine.word (d.uses.getD 0 + 2 ^ 16 * d.uses.isSome.toNat + 2 ^ 17 * d.sealed_.isSome.toNat + 2 ^ 18 * d.sealed_.getD 0)]

/-- A port as a proof area restores it. -/
def InPort.restore (d : InPort) (ws : List Word) : InPort :=
  let w := wd ws 18
  let tok : Option Tok := if w.getLsbD 16 then tokOf ws else none
  { d with
    queue := tok.toList
    uses := if tok.isSome then some (bits w 0 16) else none
    sealed_ := if w.getLsbD 17 then some (bits w 18 2) else none }

/-- The words of a tile's proof area behind its state area (R427): eight quires and sixteen input ports. -/
def State.proofWords (s : State) (t : Nat) : List Word :=
  ((List.range 8).flatMap fun q => padTo 22 (s.quire t q).words) ++ (List.range 16).flatMap fun p => (s.inPort t p).proofWords (s.tileTag t) p

/-- Bytes of those words. -/
def proofTail : Nat := 8 * (8 * 22 + 16 * 19)

/-- The logical tile's number in the placement record (R416, R427). -/
def Choice.recordIndex (c : Choice) (t : Nat) : Nat := (sortBy (fun p => p.ly * 256 + p.lx) c.tiles).findIdx fun p => p.tile == t

/-- D address of the proof area of a tile for a cut (R427). -/
def State.proofArea (s : State) (n : Nat) (c : Choice) (t cut : Nat) : Nat :=
  (s.ccbGet (s.ccbOf n) 88 8).getD 0 + 2 ^ 21 * c.recordIndex t + 2 ^ 20 * (cut % 2)

/-- The cut of the proof marks that all stand oldest at a tile's fed ports, if they do (R328). -/
def State.marksAt (s : State) (t : Nat) : Option (BitVec 32) :=
  let cuts := (s.fedPorts t).map fun p => match (s.inPort t p).front with
    | some k => (match k.kind with | .proof c => some c | .data | .colophon _ | .probe | .seam => none)
    | none => none
  match cuts with
  | [] => none
  | c :: cs => if (c :: cs).all Option.isSome then c else none

/-- A tile may perform its proof step (R328, R377, R421, R426). -/
def State.proofDue (s : State) (t : Nat) : Bool :=
  let e := (s.tile t).port
  e.tests && s.walksIdle t && (s.marksAt t).isSome && s.hasSlots t e.arcs

/-- PROOF_STEP (R328, R426, R427): the snapshot goes to D, a mark leaves on each output port with an arc, the marks are consumed, and the
front-end micro-kernel gets the tile's report. -/
def execProofStep (t : Nat) (s : State) : Host.Outcome State Fault Refusal :=
  match s.marksAt t, (s.tile t).place.chase with
  | some cut, some n =>
    match s.runOf n with
    | none => .next s
    | some run =>
      if !s.proofDue t then .next s
      else
        let a := (s.tile t).place.stateArea
        let v := s.readLocal t 0 .t (s.tile t).port.desc.bkey a.1 a.2
        match s.chaseWrite t 0 (s.ccbOf n) (s.proofArea n run t cut.toNat) (a.2 + proofTail) (v + 256 ^ a.2 * natOfWords (s.proofWords t)) with
        | (_, .error _) => .next s
        | (s, .ok _) =>
          let s := s.sendAll t (s.tile t).port.arcs (.proof cut) 0 1
          let s := (s.fedPorts t).foldl (fun s p => s.consumeFront t p) s
          .next ((s.modPort t fun e => { e with proofAt := cut }).post (.proofReport n t cut))
  | _, _ => .next s

/-- The cut that a chase has under way. -/
def State.nextCut (s : State) (n : Nat) : BitVec 32 := BitVec.ofNat 32 ((s.ccbGet (s.ccbOf n) 84 4).getD 0 + 1)

/-- A tile of a chase has reported a cut. -/
def State.reported (s : State) (n t : Nat) (cut : BitVec 32) : Bool :=
  s.net.any fun m => match m with | .proofReport c u k => c == n && u == t && k == cut | _ => false

/-- CUT_COMPLETE (R426, R428): every tile has reported; the cut goes into the CCB, and older log entries are freed. -/
def execCutComplete (chase : Nat) (s : State) : Host.Outcome State Fault Refusal :=
  let cut := s.nextCut chase
  let ts := s.runTiles chase
  if ts.isEmpty || !ts.all fun t => s.reported chase t cut then .next s
  else
    let s : State := { s with net := s.net.filter fun m => match m with | .proofReport c _ k => !(c == chase && k == cut) | _ => true }
    let s := s.sysWrite (s.ccbOf chase + 84) 4 cut.toNat
    let free (k : FormeInput) : FormeInput :=
      { k with logFirst := k.marks.get k.logFirst cut.toNat, marks := k.marks.filter fun m => decide (cut.toNat ≤ m.1) }
    .next (s.modChase chase fun c => { c with inputs := c.inputs.map fun i => (i.1, free i.2) })

/-! ## Rollback (R429 to R431) -/

/-- The tags of a tile that a chase binds. -/
def State.chaseTags (s : State) (n : Nat) : List Tag := (s.runTiles n).map fun t => (s.tile t).place.member

/-- The tile to which a message in flight is addressed. -/
def Msg.place : Msg → Option Nat
  | .token t _ _ _ | .slot t _ _ _ _ | .mail t _ _ _ _ _ _ | .withdrawal t _ | .stealAsk t _ _ | .stealAnswer t _ _ _ _ | .walkNotice t _ _
  | .retire t _ _ _ _ _ | .dramReply t _ _ _ _ _ _ | .seam t _ _ _ _ _ | .heartbeat t _ _ _ _ | .timing t _ _ => some t
  | .mailAnswer _ dst _ _ _ _ | .contextFree _ dst _ => some dst.tile
  | .formeSlot _ _ | .seamAck _ _ | .dramRequest _ _ | .invalidate _ _ _ _ _ _ | .invalidated _ _ _ _ _ _ | .shoot _ _ _ _ _ _
  | .shot _ _ _ _ _ _ | .proofReport _ _ _ | .backing _ => none

/-- A message in flight is a token of a chase, or belongs to one of its operations, or is addressed to one of its dead tiles (R17, R431
step 1). -/
def State.ofChase (s : State) (n : Nat) (m : Msg) : Bool :=
  let ts := s.runTiles n
  let gs := s.chaseTags n
  (match m.place with | some t => (s.chase n).dead.contains t | none => false) || match m with
  | .token _ g _ _ | .slot _ g _ _ _ | .formeSlot g _ | .seam _ g _ _ _ _ => gs.contains g
  | .seamAck g _ => gs.contains g
  | .mail _ _ _ src _ _ _ => ts.contains src.tile
  | .stealAsk t _ _ | .stealAnswer t _ _ _ _ | .walkNotice t _ _ | .retire t _ _ _ _ _ => ts.contains t
  | .dramRequest _ r => ts.contains r.tile
  | .backing r => ts.contains r.tile
  | .dramReply _ _ _ rq _ _ _ => gs.contains rq
  | .proofReport c _ _ => c == n
  | .mailAnswer _ _ _ _ _ _ | .contextFree _ _ _ | .withdrawal _ _ | .invalidate _ _ _ _ _ _ | .invalidated _ _ _ _ _ _
  | .shoot _ _ _ _ _ _ | .shot _ _ _ _ _ _ | .heartbeat _ _ _ _ _ | .timing _ _ _ => false

/-- A mail handler whose mail was accepted and that has issued nothing (R342). -/
def State.notStarted (s : State) (u : Cur) : Bool :=
  let k := s.ctx u
  match k.handler with
  | .mail _ _ _ _ _ _ => !k.started
  | .none | .firing _ | .item _ _ => false

/-- A mail handler's owed reply at a rollback: a mail not started is cancelled, and one that has started sends nothing (R342, R431). -/
def State.dropReply (s : State) (u : Cur) : State :=
  let s := if s.notStarted u then s.reply u 0x11 0x4000 0 else s
  s.modPort u.tile fun e => { e with replies := e.replies.filter fun r => !(r.core == u.core && r.ctx == u.ctx) }

/-- A handler of the chase is freed, its ENDH effects omitted (R431 step 1). -/
def State.freeHandler (s : State) (u : Cur) : State :=
  if (s.ctx u).status = .free ∨ (s.ctx u).handler = .none then s
  else
    let s := (s.leaveWait u).dropReply u
    s.freeCtx u

/-- The open walks of a core complete with status 0x4000, and its piece is gone (R233). -/
def State.cancelWalks (s : State) (t c : Nat) : State :=
  let w := s.walker t c
  let s := s.modWalker t c fun w => { w with piece := none, open_ := [], notices := [], asking := none, claims := [], answer := [] }
  w.open_.foldl (fun s k =>
    if k.ev then s.deliverInOrder t c (mkRecord 2 c 0x4000 k.walk (word (k.retired % 2 ^ 40 + 2 ^ 40 * min k.freed (2 ^ 24 - 1)))) else s) s

/-- The engine operations of a tile complete with status 0x4000 (R215, R225, R314), their arrivals going to no quire. -/
def State.cancelEngines (s : State) (t : Nat) : State :=
  let s := s.modEng t fun e => { e with quires := [] }
  let s := (List.range 8).foldl (fun s h => s.cancelUnit t 1 h) s
  let s := (List.range 4).foldl (fun s c =>
    ((s.core t c).streams.map Prod.fst).foldl (fun s u => s.cancelBinding t c u) s) s
  let s := (List.range 4).foldl (fun s c => s.cancelUnit t 5 c) s
  s.modEng t fun e => { e with quoins := [] }

/-- A tile of a chase is held and emptied (R431 step 1, R371). -/
def State.holdTile (s : State) (n cut t : Nat) : State :=
  let s := s.notify t 0 .proofRollback (word (n % 65536 + 2 ^ 32 * cut))
  let s := (s.ctxList t).foldl State.freeHandler s
  let s := (List.range 4).foldl (fun s c => s.cancelWalks t c) s
  let s := s.cancelEngines t
  let s := s.modXnode t fun x => { x with buf := [], pins := [], held := [], remote := [], dreqs := [], shooting := [], flushed := [] }
  s.modPort t fun e => { e with
    inputs := e.inputs.map fun p => (p.1, { p.2 with queue := [], uses := none })
    outputs := e.outputs.map fun p => (p.1, { p.2 with owed := [], seq := 0, slots := 8, seamed := false })
    firing := none
    frozen := false
    probed := false }

/-- Answers for the mails of other chases that are discarded with a dead tile: refused and not listed (R17, R338; assumption 49). -/
def State.lostMails (s : State) (n : Nat) : List Msg :=
  s.net.filterMap fun m => match m with
    | .mail t g _ src i _ reply =>
      if (s.chase n).dead.contains t && !(s.runTiles n).contains src.tile then some (.mailAnswer t src g i 2 reply) else none
    | _ => none

/-- Step 1 of a rollback (R431). -/
def State.holdChase (s : State) (n cut : Nat) : State :=
  let s := s.endMigration n true
  let s : State := { s with net := (s.net.filter fun m => !s.ofChase n m) ++ s.lostMails n }
  let s := (s.runTiles n).foldl (fun s t => s.holdTile n cut t) s
  let s := s.modRebal n fun r => { r with windows := [], cool := [] }
  let gone (o : DupAck) : Bool := (s.runTiles n).contains o.tile && (s.actor o.dup).lost
  let s : State := { s with actors := s.actors.map fun p => (p.1, { p.2 with
    dir := p.2.dir.map fun e => { e with owing := e.owing.filter fun o => !gone o } }) }
  s.modGalleys fun y => { y with slots := y.slots.map fun k => if k.2.mapped && k.2.chase == n then (k.1, { k.2 with fault := none }) else k }

/-- The spares of a zone, lowest first (R17, R18). -/
def State.sparesOf (s : State) (z : Nat) : List Nat :=
  (s.tiles.filter fun y => y.2.place.live && !y.2.place.working && y.2.place.chase.isNone && zoneOf y.1 == z).map Prod.fst

/-- The spare that takes a dead tile's tag: of its zone, or of the nearest zone by number, ties to the lower (R17). -/
def State.spareFor (s : State) (t : Nat) : Option Nat :=
  (sortBy (fun z => 64 * dist z (zoneOf t) + z) (List.range 48)).findSome? fun z => (s.sparesOf z).head?

/-- The tile images of a chase's running placement, read again from its file (R413). -/
def State.runImages (s : State) (n : Nat) (c : Choice) : Option (List TileImage) :=
  match s.chaseRead 0 (s.ccbOf n) c.file 64 with
  | (s, .ok h) =>
    (match s.chaseRead 0 (s.ccbOf n) c.file (64 + 32 * field h 12 1) with
      | (s, .ok head) =>
        (match s.chaseRead 0 (s.ccbOf n) c.file (Config.fileLength head) with
          | (_, .ok v) => some (Config.tileImages v c.index)
          | (_, .error _) => none)
      | (_, .error _) => none)
  | (_, .error _) => none

/-- Every tag of a tile is bound to another (R17): those of kind 3 name DRAM actors. -/
def State.rebindTags (s : State) (t d : Nat) : State :=
  { s with tags := s.tags.map fun e => if e.2 = t ∧ e.1 / 2 ^ 21 ≠ 3 then (e.1, d) else e }

/-- A member of a dead tile goes to a spare (R431 step 2): the spare takes its tags and its image, its cores start, and its record entry is
marked. -/
def State.rebindDead (s : State) (n : Nat) (is : List TileImage) (t : Nat) : Option State :=
  match s.runOf n with
  | none => none
  | some run =>
    match run.tiles.find? (·.tile == t), s.spareFor t with
    | some p, some d =>
      match is.find? fun i => i.lx == p.lx && i.ly == p.ly with
      | none => none
      | some i =>
        let s := s.rebindTags t d
        let s := s.modTile t fun y => { y with place := { y.place with chase := none, member := 0 } }
        let s := s.modTile d fun y => { y.startKernel (s.plat.root.kernel.drop 128) with place := { y.place with working := true } }
        let s := s.install n (s.ccbOf n) run.abase is d i
        let moved (q : Placed) : Placed := if q.tile = t then { q with tile := d, spare := true } else q
        let run' := { run with tiles := run.tiles.map moved }
        let s := s.modChase n fun c => { c with run := some run' }
        let r := run'.record
        let s := (s.chaseWrite d 0 (s.ccbOf n) ((s.ccbGet (s.ccbOf n) 72 8).getD 0) r.1 r.2).1
        let rec_ := bytesOfNat 8 s.now ++ bytesOfNat 8 1 ++ bytesOfNat 8 (tileName d) ++ bytesOfNat 8 (tileName t)
        let s : State := { s with plat := { s.plat with spareLog := s.plat.spareLog ++ [rec_] } }
        some (s.notify d 0 .spareSwap (word (1 + 65536 * tileName d)))
    | _, _ => none

/-- A tile's state area, quires and ports as its image gives them (R431 step 3, cut 0). -/
def State.restoreImage (s : State) (t : Nat) (i : TileImage) : State :=
  let key := (s.tile t).port.desc.bkey
  let byteAt (a : Nat) : Nat := match i.tdata.find? fun r => decide (r.1 ≤ a) && decide (a < r.1 + r.2.length) with
    | some r => (r.2.getD (a - r.1) 0).toNat
    | none => 0
  let s := (List.range i.state.2).foldl (fun s k => s.writeLocal t 0 .t key (i.state.1 + k) 1 (byteAt (i.state.1 + k))) s
  let s := i.quires.foldl (fun s q => s.modQuire t q.1 fun z => z.load q.2) s
  s.modPort t fun e => { e with inputs := e.inputs.map fun p => (p.1, { p.2 with queue := [], uses := none, sealed_ := none }), proofAt := 0 }

/-- A tile's state area, quires and ports as the proof area of a cut holds them (R431 step 3). -/
def State.restoreArea (s : State) (n : Nat) (run : Choice) (cut t : Nat) : Option State :=
  let a := (s.tile t).place.stateArea
  match s.chaseRead t (s.ccbOf n) (s.proofArea n run t cut) (a.2 + proofTail) with
  | (_, .error _) => none
  | (s, .ok v) =>
    let ws := wordsOf (proofTail / 8) (v / 256 ^ a.2)
    let s := s.writeLocal t 0 .t (s.tile t).port.desc.bkey a.1 a.2 (v % 256 ^ a.2)
    let s := (List.range 8).foldl (fun s q => s.modQuire t q fun _ => quireOf ((ws.drop (22 * q)).take 22)) s
    let port (p : Nat × InPort) : Nat × InPort := (p.1, p.2.restore ((ws.drop (8 * 22 + 19 * p.1)).take 19))
    some (s.modPort t fun e => { e with inputs := e.inputs.map port, proofAt := BitVec.ofNat 32 cut })

/-- A logged token (R428): its kind, payload and length. -/
def loggedTok (v : Nat) : TokKind × Token × Nat :=
  let payload := v / 2 ^ 128 % 2 ^ 1024
  (match v / 2 ^ 30 % 16 with
    | 1 => .colophon (v / 2 ^ 34 % 4)
    | 2 => .proof (BitVec.ofNat 32 payload)
    | _ => .data, BitVec.ofNat 1024 payload, v / 2 ^ 36 % 32)

/-- Logged entries of an input from one on are sent again, `count` of them (R431 step 4). -/
def State.replayFrom (n i : Nat) : Nat → Nat → State → Option State
  | 0, _, s => some s
  | count + 1, e, s =>
    match s.input n i with
    | none => none
    | some k =>
      match s.chaseRead (s.inputTile k) (s.ccbOf n) (s.logAddr n i e) 256 with
      | (_, .error _) => none
      | (s, .ok v) =>
        let t := loggedTok v
        State.replayFrom n i count (e + 1) (s.feed n i t.1 t.2.1 t.2.2)

/-- Every input of a chase receives again what was logged after the cut's mark, or since the swap (R431 step 4). -/
def State.replay (s : State) (n cut : Nat) : Option State :=
  let fresh (k : FormeInput) : FormeInput := { k with seq := 0, slots := 8, waiting := [], probeDue := false, heldAt := false }
  let s := s.modChase n fun c => { c with inputs := c.inputs.map fun i => (i.1, fresh i.2) }
  if s.logSize n = 0 then some s
  else (s.chase n).inputs.foldl (fun r i => r.bind fun s =>
    let first := match i.2.marks.find cut with | some e => e + 1 | none => i.2.logFirst
    State.replayFrom n i.1 (i.2.logNext - first) first s) (some s)

/-- The dead tiles of a chase: those that were declared lost or silent. -/
def State.deadTiles (s : State) (n : Nat) : List Nat := (s.chase n).dead.filter (s.runTiles n).contains

/-- A chase is ended: its tiles leave it (R417, R431 step 2). -/
def State.endChase (s : State) (n : Nat) : State :=
  let s := (s.loadedTiles n).foldl (fun s t => s.modTile t fun y => { y with place := { y.place with shadow := none } }) s
  let s := (s.runTiles n).foldl State.leaveChase s
  let s := s.sysWrite (s.ccbOf n + 60) 1 3
  let s := s.modRebal n fun r => { r with windows := [], cool := [] }
  s.modChase n fun c => { Chase.reset with ccb := c.ccb, ended := true }

/-- The host receives a completion with status TILE_LOST on each galley of a chase (R431 step 2). -/
def State.completeLost (s : State) (n : Nat) : State :=
  s.galleys.slots.foldl (fun s k =>
    if k.2.mapped && k.2.chase == n then s.completion k.2.galley (BitVec.ofNat 16 (0x8000 + Cause.tileLost.code)) 0 (s.galley k.2.galley).head else s) s

/-- Step 2 of a rollback: the dead tiles' members go to spares; none where the module has no spare. -/
def State.rebindAll (s : State) (n : Nat) (run : Choice) : Option State :=
  match s.deadTiles n with
  | [] => some s
  | ds => match s.runImages n run with
    | none => none
    | some is => ds.foldl (fun r t => r.bind fun s => s.rebindDead n is t) (some s)

/-- Step 3 of a rollback. -/
def State.restoreAll (s : State) (n cut : Nat) (run : Choice) : Option State :=
  if cut = 0 then
    (s.runImages n run).map fun is => run.tiles.foldl (fun s p =>
      match is.find? fun i => i.lx == p.lx && i.ly == p.ly with
      | some i => s.restoreImage p.tile i
      | none => s) s
  else run.tiles.foldl (fun r p => r.bind fun s => s.restoreArea n run cut p.tile) (some s)

/-- The rollback of one chase to its last complete cut (R431). Where the areas, the file or the logs cannot be read it does not go on. -/
def State.rollbackOne (s : State) (n : Nat) : State :=
  match s.runOf n with
  | none => s.modChase n fun c => { c with struck := false, dead := [] }
  | some run0 =>
    let cut := (s.ccbGet (s.ccbOf n) 84 4).getD 0
    let s0 := s
    let s := s.holdChase n cut
    match s.runOf n with
    | none => s0
    | some run =>
      if (s.deadTiles n).any fun t => (s.spareFor t).isNone then
        ((s.completeLost n).endChase n)
      else match s.rebindAll n run with
        | none => s0
        | some s =>
          match (s.restoreAll n cut ((s.runOf n).getD run0)).bind fun s => s.replay n cut with
          | none => s0
          | some s => s.modChase n fun c => { c with work := .none, by_ := none, struck := false, dead := [] }

/-- The chases that a rollback of one takes with it: those of its effective fault domain, ascending (R430). -/
def State.domainChases (s : State) (n : Nat) : List Nat :=
  (s.chases.filter fun c => c.1 == n || (c.2.run.isSome && (s.domain_ n).isSome && s.domain_ c.1 == s.domain_ n)).map Prod.fst

/-- ROLLBACK (R429 to R431): a chase and every other of its fault domain, one after another. -/
def execRollback (chase : Nat) (s : State) : Host.Outcome State Fault Refusal :=
  .next ((s.domainChases chase).foldl State.rollbackOne s)

/-- FOLD_RESERVATION_LAPSE (R425). -/
def execFoldReservationLapse (chase : Nat) (s : State) : Host.Outcome State Fault Refusal :=
  let c := s.chase chase
  .next (if !c.reserved.isEmpty && decide (c.reservedUntil ≤ s.now) then s.modChase chase fun c => { c with reserved := [] } else s)

end Sys2Proof.Machine
end

