-- ==== Sys2Proof/Machine/Command.lean ====
section
/-! DEFINITION. The galley commands as the micro-kernel handles them (R390, R415, R423, R425, R428). -/

namespace Sys2Proof.Machine

/-- A field of a packet (R390): offset and bytes. -/
def packetField (p : Packet) (off n : Nat) : Nat := field (natOfBytes (p.bytes.take 64)) off n

/-- A command is complete: its completion message goes to the host if it asks for one (R390, R465). -/
def State.finishCommand (s : State) (g : Nat) (p : Packet) (status : BitVec 16) : State :=
  let s := s.modGalleys fun y => { y with
    open_ := y.open_.filter fun c => !(c.galley == g && c.index == p.index)
    jobs := y.jobs.filter fun j => !(j.1 == g && j.2.index == p.index) }
  if packetField p 1 1 % 2 = 1 then s.completion g status (BitVec.ofNat 32 (packetField p 4 4)) p.index else s

/-- A command of several steps has begun. -/
def State.beginJob (s : State) (g : Nat) (p : Packet) : State :=
  if s.galleys.jobs.any fun j => j.1 == g && j.2.index == p.index then s
  else s.modGalleys fun y => { y with jobs := y.jobs ++ [(g, p)] }

/-- Status with a cause (R390, R394). -/
def causeCode (c : Cause) : BitVec 16 := BitVec.ofNat 16 (0x8000 + c.code)

/-- The accepted command of a packet whose bytes are those of its snapshot (R395), or that has begun with those bytes. -/
def State.openCmd (s : State) (g : Nat) (p : Packet) : Option OpenCmd :=
  s.galleys.open_.find? fun c => c.galley == g && c.index == p.index &&
    (s.galleys.jobs.contains (g, p) || p.bytes == s.bytesLocal c.tile 0 .t noKey c.area 64)

/-- The micro-kernel's step for an accepted command of an op: `f` for one accepted as valid. One accepted with an error completes with
its record's status, those of op 8 to 255 by the step of op 0 (R394). -/
def State.onPacket (s : State) (g : Nat) (p : Packet) (op : Nat) (f : OpenCmd → Host.Outcome State Fault Refusal) :
    Host.Outcome State Fault Refusal :=
  let n := packetField p 0 1
  match s.openCmd g p with
  | none => .next s
  | some c =>
    if n ≠ op ∧ !(op == 0 && decide (8 ≤ n)) then .next s
    else if c.status ≠ 0 then .next (s.finishCommand g p c.status)
    else f c

/-- GALLEY_NOP (R390): it completes. -/
def execGalleyNop (galley : Nat) (packet : Packet) (s : State) : Host.Outcome State Fault Refusal :=
  s.onPacket galley packet 0 fun _ => .next (s.finishCommand galley packet 0)

/-- The descriptor of a command as its snapshot holds it (R394): its first 128 bytes. -/
def State.snapshotToken (s : State) (c : OpenCmd) (p : Packet) : Token :=
  if packetField p 16 4 = 0 then 0 else BitVec.ofNat 1024 (s.readLocal c.tile 0 .t noKey ((c.area + 128) % 2 ^ 20) 128)

/-- The galley that feeds a forme input is this one: its tokens leave from its zone's service tile (R390). -/
def State.feedFrom (s : State) (n i g : Nat) : State := s.modInput n i fun k => { k with zone := (s.galley g).zone.toNat }

/-- INPUT (R390, R428): the descriptor is logged and sent as one token. It waits while the input's log is full. -/
def execInput (galley : Nat) (packet : Packet) (s : State) : Host.Outcome State Fault Refusal :=
  s.onPacket galley packet 2 fun c =>
    let n := c.chase
    let i := packetField packet 2 2
    if (s.input n i).isNone then .next (s.finishCommand galley packet (causeCode .portUnbound))
    else match (s.feedFrom n i galley).logSend n i .data (s.snapshotToken c packet) 16 with
      | none => .next s
      | some s => .next (s.finishCommand galley packet 0)

/-- A colophon of a level is logged and sent; a drain's probe follows a level-0 colophon directly, and else a proof mark may (R421, R426). -/
def State.sendColophon (s : State) (n i level : Nat) : Option State :=
  (s.logSend n i (.colophon level) 0 0).bind fun s =>
    if level ≠ 0 then some s
    else if (match s.input n i with | some k => k.probeDue | none => false) then
      some ((s.feed n i .probe 0 0).modInput n i fun k => { k with probeDue := false, heldAt := true })
    else s.logMark n i

/-- COLOPHON (R390, R426, R428). -/
def execColophon (galley : Nat) (packet : Packet) (s : State) : Host.Outcome State Fault Refusal :=
  s.onPacket galley packet 3 fun c =>
    let n := c.chase
    let i := packetField packet 2 2
    if (s.input n i).isNone then .next (s.finishCommand galley packet (causeCode .portUnbound))
    else match (s.feedFrom n i galley).sendColophon n i (packetField packet 1 1 / 2 % 4) with
      | none => .next s
      | some s => .next (s.finishCommand galley packet 0)

/-- IMPOSE (R415, R418): FMLOAD of the forme file whose address arg0 holds, its fold code in arg0[1:0], for the galley's chase. It waits
while the chase is busy; an imposition that is refused completes with FORME_IMAGE, and one that traps with its cause. -/
def execImpose (galley : Nat) (packet : Packet) (s : State) : Host.Outcome State Fault Refusal :=
  s.onPacket galley packet 1 fun c =>
    let n := c.chase
    let ccb := s.ccbOf n
    let a := packetField packet 24 8
    let u : Cur := ⟨c.tile, 4, 0⟩
    if a % 4 = 3 ∨ a / 4 % 1024 ≠ 0 then .next (s.finishCommand galley packet (causeCode .align))
    else if !s.ccbValid ccb then .next (s.finishCommand galley packet (causeCode .formeImage))
    else if s.chaseBusy n u then .next s
    else match s.formeLoad u.tile n ccb (a / 4096 * 4096) (2 ^ (a % 4)) with
      | .loaded s => .next (s.finishCommand galley packet 0)
      | .status _ => .next (s.finishCommand galley packet (causeCode .formeImage))
      | .act (.trap c _) => .next (s.finishCommand galley packet (causeCode c))
      | .act _ => .next s

/-- A chase is drained for the micro-kernel, strays discarded, and swapped (R421 to R424); none while it waits. -/
def State.kernelSwap (s : State) (t n : Nat) (colophon : Bool) : State × Option (BitVec 16) :=
  match s.formeDrain n true colophon none with
  | (s, none) => (s, none)
  | (s, some _) =>
    match s.formeSwap t 2 n (s.ccbOf n) with
    | .swapped s => (s, some 0)
    | .status _ => (s, some (causeCode .formeImage))
    | .act (.trap c _) => (s, some (causeCode c))
    | .act _ => (s, none)

/-- A chase's work stands for another than the micro-kernel's own command. -/
def State.busyElsewhere (s : State) (n : Nat) : Bool := s.migrating n || ((s.chase n).work != .none && (s.chase n).by_.isSome)

/-- SWAP (R421, R423): the galley's chase is drained and takes its loaded forme. -/
def execSwap (galley : Nat) (packet : Packet) (s : State) : Host.Outcome State Fault Refusal :=
  s.onPacket galley packet 4 fun c =>
    let n := c.chase
    if s.busyElsewhere n then .next s
    else if (s.chase n).loaded.isNone then .next (s.finishCommand galley packet (causeCode .formeImage))
    else match (s.beginJob galley packet).kernelSwap c.tile n false with
      | (s, none) => .next s
      | (s, some k) => .next (s.finishCommand galley packet k)

/-- The code of a fold factor in FMLOAD's gb and in a SHRINK notice (R194, R418, R425). -/
def foldCode (f : Nat) : Option Nat := if f = 1 then some 0 else if f = 2 then some 1 else if f = 4 then some 2 else none

/-- SHRINK (R380, R425): the fold of the chase's running file is loaded, the chase drained in colophon mode, and swapped; the tiles that
it leaves are reserved for the galley's own chase for 10 ms. -/
def execShrink (galley : Nat) (packet : Packet) (s : State) : Host.Outcome State Fault Refusal :=
  s.onPacket galley packet 5 fun c =>
    let own := c.chase
    let n := packetField packet 24 8
    let refuse := s.finishCommand galley packet (causeCode .shrink)
    let t := c.tile
    match foldCode (packetField packet 32 8), s.runOf n with
      | some f, some run =>
        if !s.below_ (s.ccbOf own) 9 (s.ccbOf n) then .next refuse
        else
          let begun := s.galleys.jobs.any fun j => j.1 == galley && j.2.index == packet.index
          if !begun then
            let s := s.endMigration n false
            if s.migrating n ∨ (s.chase n).work ≠ .none then .next s
            else
              let s := s.notify t 3 .shrink (word (n % 65536 + 65536 * f))
              match s.formeLoad t n (s.ccbOf n) run.file (2 ^ f) with
              | .loaded s => .next ((s.beginJob galley packet).formeDrain n true true none).1
              | .status _ => .next (s.finishCommand galley packet (causeCode .shrink))
              | .act (.trap c _) => .next (s.finishCommand galley packet (causeCode c))
              | .act _ => .next s
          else if s.busyElsewhere n then .next s
          else match s.kernelSwap t n true with
            | (s', none) => .next s'
            | (s', some k) =>
              let left := (s.runTiles n).filter fun t => !(s'.runTiles n).contains t
              let s' := if left.isEmpty then s' else s'.modChase own fun c => { c with reserved := left, reservedUntil := s.now + 10 ^ 7 }
              .next (s'.finishCommand galley packet k)
      | _, _ => .next refuse

/-- RELEASE (R390, R417, R467): the chase ends. Its handlers, walks, operations and tokens go as at a rollback, its tiles leave it, and its
sessions are disabled. -/
def execRelease (galley : Nat) (packet : Packet) (s : State) : Host.Outcome State Fault Refusal :=
  s.onPacket galley packet 6 fun c =>
    let n := c.chase
    if s.busyElsewhere n then .next s
    else
      let s := s.finishCommand galley packet 0
      let s := s.endMigration n true
      let s : State := { s with net := s.net.filter fun m => !s.ofChase n m }
      let s := (s.runTiles n).foldl (fun s t =>
        let s := (s.ctxList t).foldl State.freeHandler s
        ((List.range 4).foldl (fun s c => s.cancelWalks t c) s).cancelEngines t) s
      let s := s.endChase n
      let off (k : Session) : Session := if bits k.word 0 12 = n ∧ k.word.getLsbD 12 then { k with word := 0 } else k
      let port (e : EthPort) : EthPort := { e with sessions := e.sessions.map fun k => (k.1, off k.2) }
      .next { s with plat := { s.plat with eth := s.plat.eth.map fun e => (e.1, port e.2) } }

/-- BARRIER (R390): it completes when every earlier command of the galley has. -/
def execBarrier (galley : Nat) (packet : Packet) (s : State) : Host.Outcome State Fault Refusal :=
  s.onPacket galley packet 7 fun _ =>
    if ((s.galleys.open_.find? (·.galley == galley)).map (·.index)) = some packet.index then .next (s.finishCommand galley packet 0)
    else .next s

/-- A command that has begun goes on (SWAP, SHRINK). -/
def continueJob (j : Nat × Packet) : State → Host.Outcome State Fault Refusal :=
  if packetField j.2 0 1 = 4 then execSwap j.1 j.2 else if packetField j.2 0 1 = 5 then execShrink j.1 j.2 else fun s => .next s

end Sys2Proof.Machine
end

