-- ==== Sys2Proof/Machine/Crypto.lean ====
section
/-! DEFINITION. SHA-512 and Ed25519, which R451, R456, R457 and R459 name (FIPS 180-4 and RFC 8032; assumption 19). Bytes stand in lists, the
first first. -/

namespace Sys2Proof.Machine

/-! ## SHA-512 -/

/-- The round constants, sixteen at a time: fractions of the cube roots of the first 80 primes. -/
def shaK0 : List Word :=
  [ 0x428A2F98D728AE22, 0x7137449123EF65CD, 0xB5C0FBCFEC4D3B2F, 0xE9B5DBA58189DBBC
  , 0x3956C25BF348B538, 0x59F111F1B605D019, 0x923F82A4AF194F9B, 0xAB1C5ED5DA6D8118
  , 0xD807AA98A3030242, 0x12835B0145706FBE, 0x243185BE4EE4B28C, 0x550C7DC3D5FFB4E2
  , 0x72BE5D74F27B896F, 0x80DEB1FE3B1696B1, 0x9BDC06A725C71235, 0xC19BF174CF692694 ]

def shaK1 : List Word :=
  [ 0xE49B69C19EF14AD2, 0xEFBE4786384F25E3, 0x0FC19DC68B8CD5B5, 0x240CA1CC77AC9C65
  , 0x2DE92C6F592B0275, 0x4A7484AA6EA6E483, 0x5CB0A9DCBD41FBD4, 0x76F988DA831153B5
  , 0x983E5152EE66DFAB, 0xA831C66D2DB43210, 0xB00327C898FB213F, 0xBF597FC7BEEF0EE4
  , 0xC6E00BF33DA88FC2, 0xD5A79147930AA725, 0x06CA6351E003826F, 0x142929670A0E6E70 ]

def shaK2 : List Word :=
  [ 0x27B70A8546D22FFC, 0x2E1B21385C26C926, 0x4D2C6DFC5AC42AED, 0x53380D139D95B3DF
  , 0x650A73548BAF63DE, 0x766A0ABB3C77B2A8, 0x81C2C92E47EDAEE6, 0x92722C851482353B
  , 0xA2BFE8A14CF10364, 0xA81A664BBC423001, 0xC24B8B70D0F89791, 0xC76C51A30654BE30
  , 0xD192E819D6EF5218, 0xD69906245565A910, 0xF40E35855771202A, 0x106AA07032BBD1B8 ]

def shaK3 : List Word :=
  [ 0x19A4C116B8D2D0C8, 0x1E376C085141AB53, 0x2748774CDF8EEB99, 0x34B0BCB5E19B48A8
  , 0x391C0CB3C5C95A63, 0x4ED8AA4AE3418ACB, 0x5B9CCA4F7763E373, 0x682E6FF3D6B2B8A3
  , 0x748F82EE5DEFB2FC, 0x78A5636F43172F60, 0x84C87814A1F0AB72, 0x8CC702081A6439EC
  , 0x90BEFFFA23631E28, 0xA4506CEBDE82BDE9, 0xBEF9A3F7B2C67915, 0xC67178F2E372532B ]

def shaK4 : List Word :=
  [ 0xCA273ECEEA26619C, 0xD186B8C721C0C207, 0xEADA7DD6CDE0EB1E, 0xF57D4F7FEE6ED178
  , 0x06F067AA72176FBA, 0x0A637DC5A2C898A6, 0x113F9804BEF90DAE, 0x1B710B35131C471B
  , 0x28DB77F523047D84, 0x32CAAB7B40C72493, 0x3C9EBE0A15C9BEBC, 0x431D67C49C100D4C
  , 0x4CC5D4BECB3E42B6, 0x597F299CFC657E2A, 0x5FCB6FAB3AD6FAEC, 0x6C44198C4A475817 ]

def shaK : List Word := shaK0 ++ shaK1 ++ shaK2 ++ shaK3 ++ shaK4

/-- The value that hashing begins with: fractions of the square roots of the first 8 primes. -/
def shaInit : List Word :=
  [ 0x6A09E667F3BCC908, 0xBB67AE8584CAA73B, 0x3C6EF372FE94F82B, 0xA54FF53A5F1D36F1
  , 0x510E527FADE682D1, 0x9B05688C2B3E6C1F, 0x1F83D9ABFB41BD6B, 0x5BE0CD19137E2179 ]

/-- Bytes of a word, the most significant first. -/
def bytesBE (n v : Nat) : List Byte := (bytesOfNat n v).reverse

/-- The word that eight bytes hold, the most significant first. -/
def wordBE (bs : List Byte) : Word := BitVec.ofNat 64 (natOfBytes bs.reverse)

/-- A message padded to whole blocks of 128 bytes. -/
def shaPad (m : List Byte) : List Byte :=
  m ++ 0x80 :: List.replicate ((239 - m.length % 128) % 128) 0 ++ bytesBE 16 (8 * m.length)

/-- The next word of a message schedule, whose words stand newest first. -/
def shaNext (w : List Word) : Word :=
  let a := w.getD 1 0
  let b := w.getD 14 0
  (a.rotateRight 19 ^^^ a.rotateRight 61 ^^^ (a >>> 6)) + w.getD 6 0 + (b.rotateRight 1 ^^^ b.rotateRight 8 ^^^ (b >>> 7)) + w.getD 15 0

/-- A schedule extended by words. -/
def shaExtend : Nat → List Word → List Word
  | 0, w => w
  | n + 1, w => shaExtend n (shaNext w :: w)

/-- The first words of a block. -/
def shaWords : Nat → List Byte → List Word
  | 0, _ => []
  | n + 1, bs => wordBE (bs.take 8) :: shaWords n (bs.drop 8)

/-- One round, on the eight working words. -/
def shaRound (h : List Word) (kw : Word × Word) : List Word :=
  match h with
  | [a, b, c, d, e, f, g, i] =>
    let s1 := e.rotateRight 14 ^^^ e.rotateRight 18 ^^^ e.rotateRight 41
    let ch := (e &&& f) ^^^ (~~~e &&& g)
    let t1 := i + s1 + ch + kw.1 + kw.2
    let s0 := a.rotateRight 28 ^^^ a.rotateRight 34 ^^^ a.rotateRight 39
    let maj := (a &&& b) ^^^ (a &&& c) ^^^ (b &&& c)
    [t1 + (s0 + maj), a, b, c, d + t1, e, f, g]
  | h => h

/-- The hash value after a block. -/
def shaBlock (h : List Word) (block : List Byte) : List Word :=
  let w := (shaExtend 64 (shaWords 16 block).reverse).reverse
  List.zipWith (· + ·) h ((List.zip shaK w).foldl shaRound h)

/-- The hash value after some blocks of a padded message. -/
def shaBlocks : Nat → List Word → List Byte → List Word
  | 0, h, _ => h
  | n + 1, h, bs => shaBlocks n (shaBlock h (bs.take 128)) (bs.drop 128)

/-- SHA-512 of a message: 64 bytes. -/
def sha512 (m : List Byte) : List Byte :=
  let p := shaPad m
  (shaBlocks (p.length / 128) shaInit p).flatMap fun w => bytesBE 8 w.toNat

/-! ## Ed25519 -/

/-- The field's prime and the order of the base point. -/
def edP : Nat := 2 ^ 255 - 19
def edL : Nat := 2 ^ 252 + 27742317777372353535851937790883648493

/-- `x` to the power `n` modulo `m`, by the lowest `bits` bits of `n`. -/
def powMod (m : Nat) : Nat → Nat → Nat → Nat
  | 0, _, _ => 1 % m
  | k + 1, x, n =>
    let r := powMod m k (x * x % m) (n / 2)
    if n % 2 = 1 then x * r % m else r

/-- The inverse in the field. -/
def edInv (x : Nat) : Nat := powMod edP 255 x (edP - 2)

/-- The curve's constant d, and a square root of -1. -/
def edD : Nat := (edP - 121665) * edInv 121666 % edP
def edI : Nat := powMod edP 255 2 ((edP - 1) / 4)

/-- A point in extended coordinates. -/
structure EdPoint where
  x : Nat
  y : Nat
  z : Nat
  t : Nat
deriving DecidableEq, Repr

/-- The neutral point. -/
def EdPoint.zero : EdPoint := ⟨0, 1, 1, 0⟩

/-- The sum of two points. -/
def EdPoint.add (p q : EdPoint) : EdPoint :=
  let a := (p.y + edP - p.x) * (q.y + edP - q.x) % edP
  let b := (p.y + p.x) * (q.y + q.x) % edP
  let c := 2 * p.t * q.t % edP * edD % edP
  let d := 2 * p.z * q.z % edP
  let e := (b + edP - a) % edP
  let f := (d + edP - c) % edP
  let g := (d + c) % edP
  let h := (b + a) % edP
  ⟨e * f % edP, g * h % edP, f * g % edP, e * h % edP⟩

/-- `n` times a point, by the lowest bits of `n`. -/
def EdPoint.mul : Nat → Nat → EdPoint → EdPoint
  | 0, _, _ => EdPoint.zero
  | k + 1, n, p =>
    let r := EdPoint.mul k (n / 2) (p.add p)
    if n % 2 = 1 then p.add r else r

/-- The x of a point of the curve from its y and its sign bit. -/
def edRecover (y : Nat) (sign : Nat) : Option Nat :=
  let x2 := (y * y % edP + edP - 1) * edInv (edD * (y * y % edP) % edP + 1) % edP
  let r := powMod edP 255 x2 ((edP + 3) / 8)
  let r := if r * r % edP = x2 then r else r * edI % edP
  if r * r % edP ≠ x2 ∨ (r = 0 ∧ sign = 1) then none
  else some (if r % 2 = sign then r else (edP - r) % edP)

/-- The point that 32 bytes encode. -/
def edDecode (bs : List Byte) : Option EdPoint :=
  let n := natOfBytes (bs.take 32)
  let y := n % 2 ^ 255
  if bs.length ≠ 32 ∨ edP ≤ y then none
  else (edRecover y (n / 2 ^ 255)).map fun x => ⟨x, y, 1, x * y % edP⟩

/-- The encoding of a point. -/
def EdPoint.encode (p : EdPoint) : List Byte :=
  let i := edInv p.z
  bytesOfNat 32 (p.y * i % edP + 2 ^ 255 * (p.x * i % edP % 2))

/-- The base point. -/
def edBase : EdPoint :=
  let y := 4 * edInv 5 % edP
  match edRecover y 0 with
  | some x => ⟨x, y, 1, x * y % edP⟩
  | none => EdPoint.zero

/-- The secret scalar of a seed. -/
def edScalar (seed : List Byte) : Nat :=
  let h := natOfBytes ((sha512 seed).take 32)
  h % 2 ^ 254 / 8 * 8 + 2 ^ 254

/-- The public key of a seed. -/
def edPublic (seed : List Byte) : List Byte := (edBase.mul 256 (edScalar seed)).encode

/-- The number that a message's hash gives as a scalar. -/
def edHash (m : List Byte) : Nat := natOfBytes (sha512 m) % edL

/-- The signature of a message under the key of a seed: 64 bytes. -/
def edSign (seed m : List Byte) : List Byte :=
  let r := edHash ((sha512 seed).drop 32 ++ m)
  let big := (edBase.mul 253 r).encode
  let k := edHash (big ++ edPublic seed ++ m)
  big ++ bytesOfNat 32 ((r + k * edScalar seed) % edL)

/-- A signature of a message is valid under a public key. -/
def edVerify (key m sig : List Byte) : Bool :=
  let s := natOfBytes (sig.drop 32)
  match edDecode key, edDecode (sig.take 32) with
  | some a, some r =>
    sig.length == 64 && decide (s < edL) &&
      (edBase.mul 253 s).encode == (r.add (a.mul 253 (edHash (sig.take 32 ++ key ++ m)))).encode
  | _, _ => false

end Sys2Proof.Machine
end

