-- ==== Sys2Proof/Machine/Root.lean ====
section
/-! DEFINITION. The root of trust (chapter 18 of spec/): fuses, images and flash, boot, measurement and attestation, lifecycle and debug,
the commands of ops 5 and 6 (R465), and JTAG. -/

namespace Sys2Proof.Machine

/-- The state with the root of trust changed. -/
def State.modRoot (s : State) (f : Root → Root) : State := { s with plat := { s.plat with root := f s.plat.root } }

/-- A little-endian field of an image or a body. -/
def leField (bs : List Byte) (off n : Nat) : Nat := natOfBytes ((bs.drop off).take n)

/-! ## Images (R451, R452) -/

/-- The bytes of a 512-bit fuse value (R7, R450). -/
def fuseBytes (n : Nat) (v : Nat) : List Byte := bytesOfNat n v

/-- Security version of an image, and the least versions that a flash stage asks of the others (R451). -/
def imageSvn (i : List Byte) : Nat := leField i 12 4

/-- The set bits of the security-version thermometer (R450). -/
def Fuses.svnCount (f : Fuses) : Nat := ((List.range 64).filter fun i => f.svn.getLsbD i).length

/-- The least security version of a kind of image (R452). -/
def Root.leastSvn (r : Root) (kind : Nat) : Nat :=
  if kind = 1 then r.fuses.svnCount else if kind = 2 then leField r.stage 16 4 else leField r.stage 20 4

/-- The header of an image has its magic, version and kind, a body length in range, and zeros where it must (R451). -/
def headerOk (kind : Nat) (i : List Byte) : Bool :=
  let n := leField i 8 4
  leField i 0 4 == 0x46570A11 && leField i 4 1 == 1 && leField i 5 1 == kind && leField i 6 2 == 0 && leField i 24 8 == 0
    && decide (1 ≤ n) && decide (n ≤ if kind = 2 then 0x8000 else 0x100000) && i.length == 128 + n
    && (kind == 1 || (leField i 16 4 == 0 && leField i 20 4 == 0))

/-- An image verifies (R451). -/
def Root.verifies (r : Root) (kind : Nat) (i : List Byte) : Bool :=
  let key := (i.drop 32).take 32
  headerOk kind i && sha512 key == fuseBytes 64 r.fuses.skhash.toNat
    && edVerify key (i.take 64 ++ i.drop 128) ((i.drop 64).take 64) && decide (r.leastSvn kind ≤ imageSvn i)

/-! ## Measurement (R456) -/

/-- M is extended by a digest, and the log by an entry of 72 bytes. -/
def Root.extend (r : Root) (head d : List Byte) : Root :=
  { r with
    m := BitVec.ofNat 512 (natOfBytes (sha512 (bytesOfNat 64 r.m.toNat ++ d)))
    log := r.log ++ [head ++ d] }

/-- An image is measured: kind in byte 0, isvn in bytes 4 to 7, and its digest. -/
def Root.measure (r : Root) (kind : Nat) (i : List Byte) : Root :=
  r.extend (bytesOfNat 4 kind ++ bytesOfNat 4 (imageSvn i)) (sha512 i)

/-! ## Boot (R4, R6, R16, R18, R387, R454, R455) -/

/-- The tiles that the defect fuses name (R450). -/
def Fuses.badTiles (f : Fuses) : List Nat :=
  (f.defects.filter (· != 0xFFFF)).map fun e => tileAt (e.toNat % 256) (e.toNat / 256)

/-- A defect entry of a tile in the layout of the fuses (R450). -/
def defectEntry (t : Nat) : BitVec 16 := BitVec.ofNat 16 (tileName t)

/-- The tiles that self-test finds live. -/
def liveAfter (bad : List Nat) : List Nat := (List.range 25920).filter fun t => !bad.contains t

/-- Live tiles by zone. -/
def zoneCounts (live : List Nat) : List Nat := (List.range 48).map fun z => (live.filter fun t => zoneOf t == z).length

/-- The boot grade: the highest whose need every zone meets, and no higher than the marked grade; 3 is none (R4). -/
def gradeOf (counts : List Nat) (marked : Nat) : Nat :=
  max marked (((List.range 3).find? fun g => counts.all fun n => decide (gradeNeed g ≤ n)).getD 3)

/-- Spares of a zone, `k` of them: the eastmost tiles not yet marked of its rows in turn (R18). -/
def markSpares : Nat → Nat → List (List Nat) → List Nat
  | 0, _, _ => []
  | n + 1, k, rows =>
    let heads := (rows.filterMap List.head?).take k
    heads ++ markSpares n (k - heads.length) (rows.map List.tail)

/-- The rows of a zone's live tiles, the northernmost first, each its eastmost first (R18). -/
def zoneRows (live : List Nat) (z : Nat) : List (List Nat) :=
  (List.range 27).reverse.map fun r => (live.filter fun t => zoneOf t == z && rowOf t % 27 == r).reverse

/-- The spares of the module (R18). -/
def sparesAtBoot (live : List Nat) (need : Nat) : List Nat :=
  (List.range 48).flatMap fun z =>
    let rows := zoneRows live z
    markSpares 20 ((rows.map List.length).sum - need) rows

/-- The zones of the front end (R387). -/
def frontEndZone (i : Nat) : Nat := [3, 4, 43, 44].getD i 0

/-- The bindings that the binder makes (R15, R16): tile roles, DRAM actors, and endpoints. -/
def bootTags (live : List Nat) : Sparse Nat :=
  live.map (fun t => ((roleTag t).toNat, t)) ++ (List.range 96).map (fun a => ((Tag.make 3 a 0).toNat, a)) ++
    (List.range 20).map fun n => ((endpointTag n).toNat, live.getD (Config.endpointPlace n % max 1 live.length) 0)

/-- The wafer and the DRAM with no power: no tile, no data, no key, no binding, no slot, no link. The always-on island and the Ethernet
ports stay: galley entries, notice queues, latched kicks, sessions, rings and the time master (R1, R458; assumption 42). -/
def State.waferOff (s : State) : State :=
  { s with
    tiles := [], dram := { bytes := [], keyOf := [], poison := [] }, actors := [], tags := [], chases := [], rebals := [], net := []
    galleys := { s.galleys with
      entries := s.galleys.entries.map fun e => (e.1, { e.2 with mapped := false })
      slots := [], open_ := [], jobs := [], tableBase := 0, serviceTags := [], snapBases := [] }
    plat := { s.plat with
      power := { Power.reset with tripped := s.plat.power.tripped }
      links := [], groups := [], members := [], linkFaults := [], spareLog := [], holds := [] } }

/-- Reference time starts from 0 (R454): what the island counts by it goes on, and the time port is named anew (R441). -/
def State.restartTime (s : State) : State :=
  let s := s.ageGalleys
  let m := s.plat.time
  { s with
    now := 0
    galleys := { s.galleys with agedAt := 0 }
    plat := { s.plat with time := { m with port := none, lastSync := 0, offset := m.offset + s.now, lastToken := 0 } } }

/-- Steps 3 to 5 of boot, the stage having verified (R454). -/
def State.bootStage (s : State) (tests : SelfTest) : State :=
  let r := s.plat.root
  let bad := r.fuses.badTiles ++ tests.failed
  let live := liveAfter bad
  let counts := zoneCounts live
  let grade := gradeOf counts r.fuses.mgrade.toNat
  let s := s.modRoot fun r => { r with
    bootGrade := grade, counts := counts
    defects := ((List.range 25920).filter fun t => bad.contains t).map defectEntry
    keysLocked := !(r.fuses.life == 0 || r.fuses.life == 1 || r.fuses.life == 3)
    phase := if grade = 3 then .gradeNone else .awaitImages }
  if grade = 3 then s
  else
    let spares := sparesAtBoot live (gradeNeed grade)
    let tile (t : Nat) : Tile := { Tile.reset with place := { Tile.reset.place with live := true, working := !spares.contains t } }
    let service (i : Nat) : Option (Nat × Tag) :=
      (live.find? fun t => zoneOf t == frontEndZone i && !spares.contains t).map fun t => (i, roleTag t)
    { s with
      tiles := live.map fun t => (t, tile t)
      tags := bootTags live
      galleys := { s.galleys with serviceTags := (List.range 4).filterMap service } }

/-- The flash stage, header and body, where its header is one (R453). -/
def Root.flashImage (r : Root) : List Byte := r.flash.take (128 + leField r.flash 8 4)

/-- The rest of a flash write (R453): the body and the header, the answer, and what follows: boot goes on after ROM recovery (R455), and
FIRMWARE_STATE tells of a rewritten stage (R460). -/
def State.firmwareNotice (s : State) (code : Nat) : State :=
  s.galleys.serviceTags.foldl (fun s p => match s.tileOf p.2 with
    | some t => s.notify t 3 .firmwareState (word code)
    | none => s) s

/-- A command's answer (R465). -/
def State.answer (s : State) (port op code status tag : Nat) (rest : List Byte) : State :=
  s.sendFrame port 0 op 0 (commandBody code status tag rest)

/-- A flash write that has begun comes to its end, before whatever the root of trust does next. -/
def State.finishFlash (s : State) : State :=
  match s.plat.root.writing with
  | none => s
  | some (image, who) =>
    let recovery := s.plat.root.phase == .romRecovery
    let s := s.modRoot fun r => { r with flash := image, writing := none, phase := if recovery then .powerUp else r.phase }
    let s := match who with | some (port, tag) => s.answer port 6 0x0102 0 tag [] | none => s
    if recovery then s else s.firmwareNotice 5

/-- POWER_UP_BOOT (R454): at power-up, after ROM recovery and at an exit from standby. -/
def execPowerUpBoot (tests : SelfTest) (s : State) : Host.Outcome State Fault Refusal :=
  let s := s.finishFlash
  match s.plat.root.phase with
  | .powerUp | .standby =>
    let s := s.waferOff.restartTime.nameTimePort
    let s := s.modRoot fun r => { Root.reset with fuses := r.fuses, flash := r.flash }
    let r := s.plat.root
    if r.verifies 1 r.flashImage then
      .next ((s.modRoot fun r => { r.measure 1 r.flashImage with stage := r.flashImage }).bootStage tests)
    else .next (s.modRoot fun r => { r with phase := .romRecovery })
  | .romRecovery | .gradeNone | .awaitImages | .released => .next s

/-- The header sector is erased, and the write of a verified stage begins (R453). -/
def State.beginFlash (s : State) (image : List Byte) (who : Option (Nat × Nat)) : State :=
  s.modRoot fun r => { r with flash := List.replicate 128 0xFF ++ r.flash.drop 128, writing := some (image, who) }

/-- ROM_RECOVERY (R455): the host's image verifies and is written, and boot goes on from step 2; or the ROM waits for another. -/
def execRomRecovery (port : Nat) (image : List Byte) (s : State) : Host.Outcome State Fault Refusal :=
  let s := s.finishFlash
  .next (if s.plat.root.phase = .romRecovery ∧ (s.eth port).linkUp ∧ s.plat.root.verifies 1 image then
      (s.beginFlash image none).finishFlash
    else s)

/-- POWER_LOSS (R453, R456): everything but fuses and flash is lost. Of a flash write under way `written` bytes have been written, the
body first and the header last. -/
def execPowerLoss (written : Nat) (s : State) : Host.Outcome State Fault Refusal :=
  let r := s.plat.root
  let flash := match r.writing with
    | none => r.flash
    | some (image, _) =>
      let body := image.drop 128
      if image.length ≤ written then image
      else if written < body.length then List.replicate 128 0xFF ++ body.take written ++ r.flash.drop (128 + written)
      else image.take (written - body.length) ++ List.replicate (image.length - written) 0xFF ++ body
  .next { State.reset with
    model := s.model
    plat := { Platform.reset with sent := s.plat.sent, module := s.plat.module, root := { Root.reset with fuses := r.fuses, flash := flash } } }

/-- Step 7 of boot (R454, R460): the steward starts, and the micro-kernel on every working tile; spares stay power-gated (R18). -/
def State.releaseCores (s : State) : State :=
  let body := s.plat.root.kernel.drop 128
  let s : State := { s with tiles := s.tiles.map fun p => (p.1, if p.2.place.working then p.2.startKernel body else p.2) }
  let s := s.modPower fun p => { p with stewardRunning := true, heartbeatAt := s.now }
  s.modRoot fun r => { r with phase := .released }

/-- Step 6 of boot for an image that has verified; step 7 follows once both have (R454). -/
def State.takeImage (s : State) (kind : Nat) (image : List Byte) : State :=
  let s := s.modRoot fun r =>
    let r := r.measure kind image
    if kind = 2 then { r with kernel := image, kernelOk := true } else { r with steward := image, stewardOk := true }
  if s.plat.root.kernelOk && s.plat.root.stewardOk then s.releaseCores else s

/-- PORT_LINK_UP (R441, R454, R455): in ROM recovery the first port that links is brought up, and no other. -/
def execPortLinkUp (port : Nat) (s : State) : Host.Outcome State Fault Refusal :=
  if 4 ≤ port then .next s
  else match s.plat.root.phase with
    | .powerUp => .next s
    | .romRecovery =>
      .next (if (List.range 4).any fun p => (s.eth p).linkUp then s else s.modEth port fun e => { e with linkUp := true })
    | .gradeNone | .awaitImages | .released | .standby => .next ((s.modEth port fun e => { e with linkUp := true }).nameTimePort)

/-! ## Attestation (R457) -/

/-- A lifecycle as the quote and the identity record code it (R450, R457). -/
def Fuses.lifecycle (f : Fuses) : Nat := if f.life = 0 then 0 else if f.life = 1 then 1 else if f.life = 3 then 2 else 3

/-- Seed of the identity key (R457). -/
def Root.identitySeed (r : Root) : List Byte :=
  (sha512 (fuseBytes 32 r.fuses.dsecret.toNat ++ [0x49] ++ [BitVec.ofNat 8 r.fuses.life.toNat])).take 32

/-- Live-tile counts of zones 0 to 47, z16 each. -/
def Root.countBytes (r : Root) : List Byte := (List.range 48).flatMap fun z => bytesOfNat 2 (r.counts.getD z 0)

/-- The identity record (R465). -/
def Root.identity (r : Root) : List Byte :=
  bytesOfNat 1 1 ++ bytesOfNat 1 r.fuses.mgrade.toNat ++ bytesOfNat 1 r.bootGrade ++ bytesOfNat 1 r.fuses.lifecycle ++ bytesOfNat 4 0x00010001
    ++ fuseBytes 8 r.fuses.serial.toNat ++ (if r.fuses.lifecycle = 0 then bytesOfNat 32 0 else edPublic r.identitySeed)
    ++ r.countBytes ++ bytesOfNat 16 0

/-- A quote over a nonce, before its signature (R457). -/
def Root.quoteBody (r : Root) (nonce : List Byte) : List Byte :=
  bytesOfNat 1 1 ++ bytesOfNat 1 r.fuses.lifecycle ++ bytesOfNat 1 r.debug ++ bytesOfNat 1 r.fuses.mgrade.toNat ++ bytesOfNat 1 r.bootGrade
    ++ bytesOfNat 3 0 ++ fuseBytes 8 r.fuses.serial.toNat ++ nonce ++ bytesOfNat 64 r.m.toNat ++ bytesOfNat 4 r.log.length ++ bytesOfNat 4 0
    ++ r.countBytes

/-- The quote (R457). -/
def Root.quote (r : Root) (nonce : List Byte) : List Byte := r.quoteBody nonce ++ edSign r.identitySeed (r.quoteBody nonce)

/-! ## Commands of ops 5 and 6 (R465) -/

/-- The command codes of an op. -/
def commandCodes (op : Nat) : List Nat :=
  if op = 5 then [1, 2, 3, 4, 5, 6] else (List.range 11).map fun i => 0x0101 + i

/-- The state of the device lets a command be served (R6, R454, R455, R465): with boot grade none IDENTITY, DIAG, FLASH_WRITE and
SVN_COMMIT. -/
def Root.serves (r : Root) (code : Nat) : Bool :=
  match r.phase with
  | .powerUp => false
  | .romRecovery => code == 1 || code == 0x0102
  | .gradeNone => code == 1 || code == 5 || code == 0x0102 || code == 0x0103
  | .awaitImages => code != 3 && code != 6 && code != 0x0108
  | .released => code != 0x0101
  | .standby => code != 3 && code != 6 && code != 0x0101 && code != 0x0108

/-- What a command comes to: its status and answer body, or that it is answered later. -/
inductive Answer where
  | now (status : Nat) (rest : List Byte)
  | later

/-- A frame of op 5 or 6 (R465). One that carries another listed command is not this step's; one whose code is not listed or whose head is
malformed is answered with status 2. -/
def State.onCommand (s : State) (port op code : Nat) (f : Frame) (act : State → Nat → List Byte → State × Answer) : Host.Outcome State Fault Refusal :=
  let got := leField f.body 0 2
  let whole := decide (8 ≤ f.body.length)
  if whole && got != code && (commandCodes op).contains got then .next s
  else .next (s.finishFlash.onFrame port op f fun s =>
    let tag := leField f.body 4 4
    if !whole || got != code || leField f.body 2 2 != 0 then s.answer port op got 2 tag []
    else if !s.plat.root.serves code then s.answer port op code 1 tag []
    else match act s tag (f.body.drop 8) with
      | (s, .now status rest) => s.answer port op code status tag rest
      | (s, .later) => s)

/-- A command with no request body. -/
def bare (act : State → State × Answer) (s : State) (_ : Nat) (body : List Byte) : State × Answer :=
  if body.isEmpty then act s else (s, .now 2 [])

/-- IDENTITY (R465). -/
def execIdentity (port : Nat) (frame : Frame) (s : State) : Host.Outcome State Fault Refusal :=
  s.onCommand port 5 0x0001 frame (bare fun s => (s, .now 0 s.plat.root.identity))

/-- QUOTE (R457): refused in manufacturing lifecycle. -/
def execQuote (port : Nat) (frame : Frame) (s : State) : Host.Outcome State Fault Refusal :=
  s.onCommand port 5 0x0002 frame fun s _ body =>
    if body.length ≠ 32 then (s, .now 2 [])
    else if s.plat.root.fuses.lifecycle = 0 then (s, .now 1 [])
    else (s, .now 0 (s.plat.root.quote body))

/-- Records of a log from a first one, by a request of first and count; none where the request is malformed (R465). -/
def logSlice (log : List (List Byte)) (most : Nat) (body : List Byte) : Answer :=
  let count := leField body 4 4
  if body.length ≠ 8 ∨ count = 0 ∨ most < count then .now 2 []
  else .now 0 (((log.drop (leField body 0 4)).take count).flatten)

/-- SPARE_LOG (R409, R465). -/
def execSpareLog (port : Nat) (frame : Frame) (s : State) : Host.Outcome State Fault Refusal :=
  s.onCommand port 5 0x0003 frame fun s _ body => (s, logSlice s.plat.spareLog 256 body)

/-- MEASURE_LOG (R456, R465). -/
def execMeasureLog (port : Nat) (frame : Frame) (s : State) : Host.Outcome State Fault Refusal :=
  s.onCommand port 5 0x0004 frame fun s _ body => (s, logSlice s.plat.root.log 100 body)

/-- DIAG (R465). -/
def execDiag (port : Nat) (frame : Frame) (s : State) : Host.Outcome State Fault Refusal :=
  s.onCommand port 5 0x0005 frame (bare fun s =>
    let r := s.plat.root
    (s, .now 0 (r.countBytes ++ bytesOfNat 4 r.defects.length ++ r.defects.flatMap fun e => bytesOfNat 2 e.toNat)))

/-- SESSION (R465, R467): a session is closed where the request names one, and the lowest session not enabled is bound to a chase. -/
def execSession (port : Nat) (frame : Frame) (s : State) : Host.Outcome State Fault Refusal :=
  s.onCommand port 5 0x0006 frame fun s _ body =>
    let chase := leField body 0 2
    let shut := leField body 2 2
    if body.length ≠ 4 ∨ 256 ≤ shut then (s, .now 2 [])
    else
      let word_ (s : State) (n : Nat) (v : Word) : State :=
        s.modEth port fun e => { e with sessions := e.sessions.put n { e.session n with word := v } }
      let s := if shut = 0 then s else word_ s shut 0
      if 4096 ≤ chase ∨ !s.ccbValid (s.ccbOf chase) then (s, .now 2 [])
      else match (List.range 255).find? fun i => !((s.eth port).session (i + 1)).word.getLsbD 12 with
        | none => (s, .now 1 [])
        | some i => (word_ s (i + 1) (word (chase + 4096)), .now 0 (bytesOfNat 2 (i + 1)))

/-- What a chunk of a download comes to (R465). -/
inductive Chunk where
  | refused (status : Nat)
  | more (d : Download)
  | whole (image : List Byte)

/-- A chunk: offset and total length, 4 bytes each, then bytes. It begins a download at offset 0, or goes on where the last ended. -/
def Root.chunk (r : Root) (code : Nat) (body : List Byte) : Chunk :=
  let off := leField body 0 4
  let total := leField body 4 4
  let data := body.drop 8
  let put (have_ : List Byte) : Chunk :=
    let all := have_ ++ data
    if all.length = total then .whole all else .more ⟨code, total, all⟩
  if body.length < 9 ∨ 128 + 0x100000 < total ∨ total < off + data.length then .refused 2
  else match r.download with
    | none => if off = 0 then put [] else .refused 2
    | some d =>
      if d.code ≠ code then .refused 4
      else if off = 0 then put []
      else if off = d.bytes.length ∧ total = d.total then put d.bytes
      else .refused 2

/-- A download with what follows its completion. -/
def State.download (s : State) (code : Nat) (body : List Byte) (done : State → List Byte → State × Answer) : State × Answer :=
  match s.plat.root.chunk code body with
  | .refused k => (s, .now k [])
  | .more d => (s.modRoot fun r => { r with download := some d }, .now 0 [])
  | .whole image => done (s.modRoot fun r => { r with download := none }) image

/-- IMAGE (R454, R465): a micro-kernel or steward image in chunks; the last verifies and measures it, and both release the cores. -/
def execImage (port : Nat) (frame : Frame) (s : State) : Host.Outcome State Fault Refusal :=
  s.onCommand port 6 0x0101 frame fun s _ body => s.download 0x0101 body fun s image =>
    let r := s.plat.root
    let kind := leField image 5 1
    if kind ≠ 2 ∧ kind ≠ 3 then (s, .now 3 [])
    else if (if kind = 2 then r.kernelOk else r.stewardOk) then (s, .now 1 [])
    else if r.verifies kind image then (s.takeImage kind image, .now 0 [])
    else (s, .now 3 [])

/-- FLASH_WRITE (R453, R455, R465): the last chunk verifies the stage, and its write begins. -/
def execFlashWrite (port : Nat) (frame : Frame) (s : State) : Host.Outcome State Fault Refusal :=
  s.onCommand port 6 0x0102 frame fun s tag body => s.download 0x0102 body fun s image =>
    if s.plat.root.verifies 1 image then (s.beginFlash image (some (port, tag)), .later) else (s, .now 3 [])

/-- A thermometer of n set bits. -/
def thermometer (n : Nat) : BitVec 64 := BitVec.ofNat 64 (2 ^ min n 64 - 1)

/-- SVN_COMMIT (R452): the fuses advance to the running stage's isvn, where that exceeds them. No fuse is cleared. -/
def execSvnCommit (port : Nat) (frame : Frame) (s : State) : Host.Outcome State Fault Refusal :=
  s.onCommand port 6 0x0103 frame (bare fun s =>
    let r := s.plat.root
    if imageSvn r.stage ≤ r.fuses.svnCount then (s, .now 1 [])
    else (s.modRoot fun r => { r with fuses := { r.fuses with svn := r.fuses.svn ||| thermometer (imageSvn r.stage) } }, .now 0 []))

/-- The lifecycle advances from one state to the next by setting fuse bits (R450, R458). -/
def State.advanceLife (s : State) (was becomes : Nat) : State × Answer :=
  if s.plat.root.fuses.lifecycle = was then
    (s.modRoot fun r => { r with fuses := { r.fuses with life := r.fuses.life ||| BitVec.ofNat 3 becomes } }, .now 0 [])
  else (s, .now 1 [])

/-- PROVISION (R458). -/
def execProvision (port : Nat) (frame : Frame) (s : State) : Host.Outcome State Fault Refusal :=
  s.onCommand port 6 0x0104 frame (bare fun s => s.advanceLife 0 1)

/-- DEPLOY (R458). -/
def execDeploy (port : Nat) (frame : Frame) (s : State) : Host.Outcome State Fault Refusal :=
  s.onCommand port 6 0x0105 frame (bare fun s => s.advanceLife 1 3)

/-- RETURN (R458): only after an invasive grant; the key slots are locked for good. -/
def execReturn (port : Nat) (frame : Frame) (s : State) : Host.Outcome State Fault Refusal :=
  s.onCommand port 6 0x0106 frame (bare fun s =>
    if s.plat.root.debug ≠ 2 then (s, .now 1 [])
    else match s.advanceLife 2 7 with
      | (s, .now 0 r) => (s.modRoot fun r => { r with keysLocked := true }, .now 0 r)
      | x => x)

/-- The module enters standby (R458): the rails are off, and the root of trust keeps its measurements until it boots. -/
def State.enterStandby (s : State) : State := s.waferOff.modRoot fun r => { r with phase := .standby, download := none }

/-- STANDBY (R458): it is answered, and then the rails go off. -/
def execStandby (port : Nat) (frame : Frame) (s : State) : Host.Outcome State Fault Refusal :=
  s.onCommand port 6 0x0107 frame fun s tag body =>
    if body.isEmpty then ((s.answer port 6 0x0107 0 tag []).enterStandby, .later) else (s, .now 2 [])

/-- THERMAL_TRIP (R445): at 105 °C the rails lose power at once, and the trip stays to be reported to the host. -/
def execThermalTrip (celsius : Nat) (s : State) : Host.Outcome State Fault Refusal :=
  .next (match s.plat.root.phase with
    | .gradeNone | .awaitImages | .released =>
      if 105 ≤ celsius then (s.enterStandby).modPower fun p => { p with tripped := true } else s
    | .powerUp | .romRecovery | .standby => s)

/-- The first chunk of a steward image begins an update (R448, R460). -/
def State.beginUpdate (s : State) : State := ((s.modPower fun p => { p with updating := true }).stewardNotice 2).firmwareNotice 2

/-- LOAD_STEWARD (R448, R460): refused during another or during a FLASH_WRITE. The kept image is restarted where the new one fails. -/
def execLoadSteward (port : Nat) (frame : Frame) (s : State) : Host.Outcome State Fault Refusal :=
  s.onCommand port 6 0x0108 frame fun s _ body =>
    let first := leField body 0 4 = 0
    let under := match s.plat.root.download with | some d => d.code == 0x0102 || (d.code == 0x0108 && decide first) | none => false
    if under then (s, .now 1 [])
    else match s.plat.root.chunk 0x0108 body with
      | .refused k => (s, .now k [])
      | .more d =>
        let s := if first then s.beginUpdate else s
        (s.modRoot fun r => { r with download := some d }, .now 0 [])
      | .whole image =>
        let s := if first then s.beginUpdate else s
        let s := s.modRoot fun r => { r with download := none }
        if s.plat.root.verifies 3 image then
          ((s.modRoot fun r => { r.measure 3 image with steward := image }).firmwareNotice 3, .now 0 [])
        else (s.firmwareNotice 4, .now 3 [])

/-! ## Debug (R458, R459) -/

/-- How a level is granted (R458). -/
inductive Grant where
  | free
  | challenge
  | refused
deriving DecidableEq

/-- The grant of a level, 1 trace or 2 invasive (R458). In standby a part with no level yet only boots, and a deployed part is refused. -/
def Root.grant (r : Root) (level : Nat) : Grant :=
  if r.phase = .standby ∧ (r.debug = 0 ∨ r.fuses.lifecycle = 2) then .refused
  else match r.fuses.lifecycle with
    | 1 => if level = 1 then .free else .challenge
    | 2 => .challenge
    | _ => .free

/-- SECURITY_VIOLATION on core 3 of every front-end service tile (R459). -/
def State.violation (s : State) (reason : Nat) : State :=
  s.galleys.serviceTags.foldl (fun s p => match s.tileOf p.2 with
    | some t => s.notify t 3 .securityViolation (word reason)
    | none => s) s

/-- Every key slot is zeroed (R459): each KLOAD already accepted completes first. -/
def State.clearKeys (s : State) (lock : Bool) : State :=
  let accepted (k : Ctx) : Ctx := match k.status with | .waiting (.keyLoad _ _) => { k with granted := true } | _ => k
  let core (k : Core) : Core := { k with ctxs := k.ctxs.map fun x => (x.1, accepted x.2) }
  let s : State := { s with
    tiles := s.tiles.map fun y => (y.1, { y.2 with cores := y.2.cores.map fun c => (c.1, core c.2) })
    actors := s.actors.map fun a => (a.1, { a.2 with keys := [] }) }
  s.modRoot fun r => { r with keysLocked := r.keysLocked || lock }

/-- A level is granted (R456, R458, R459). -/
def State.grantDebug (s : State) (level : Nat) : State :=
  let life := s.plat.root.fuses.lifecycle
  let clears := level = 2 ∧ (life = 1 ∨ life = 2)
  let s := if clears then s.clearKeys (life == 2) else s
  let s := s.modRoot fun r =>
    { r.extend (bytesOfNat 8 Config.grantHead.toNat) (BitVec.ofNat 8 level :: List.replicate 63 0) with debug := max r.debug level }
  if clears then s.violation 3 else s

/-- Some free bytes, drawn by the model's counter. -/
def freeBytes (n from_ : Nat) : List Byte := (List.range n).map fun i => Config.outsideByte (from_ + i)

/-- A level is asked for (R459): a fresh nonce, and the grant itself where none has to be answered. -/
def State.askDebug (s : State) (level : Nat) : State × Option (List Byte) :=
  if level ≠ 1 ∧ level ≠ 2 ∨ s.plat.root.grant level = .refused then (s, none)
  else
    let nonce := freeBytes 32 s.model.fresh
    let s : State := { s with model := { s.model with fresh := s.model.fresh + 32 } }
    let s := s.modRoot fun r => { r with nonce := some (level, nonce) }
    (if s.plat.root.grant level = .free then s.grantDebug level else s, some nonce)

/-- A challenge is answered with a key and a signature of nonce, serial and level (R459). -/
def State.answerDebug (s : State) (key sig : List Byte) : State × Bool :=
  let r := s.plat.root
  let s := s.modRoot fun r => { r with nonce := none }
  match r.nonce with
  | none => (s.violation 1, false)
  | some (level, nonce) =>
    if sha512 key == fuseBytes 64 r.fuses.dahash.toNat &&
        edVerify key (nonce ++ fuseBytes 8 r.fuses.serial.toNat ++ [BitVec.ofNat 8 level]) sig then (s.grantDebug level, true)
    else (s.violation 1, false)

/-- DEBUG_REQUEST (R459, R465). -/
def execDebugRequest (port : Nat) (frame : Frame) (s : State) : Host.Outcome State Fault Refusal :=
  s.onCommand port 6 0x0109 frame fun s _ body =>
    let level := leField body 0 1
    if body.length ≠ 1 ∨ level ≠ 1 ∧ level ≠ 2 then (s, .now 2 [])
    else match s.askDebug level with
      | (s, some nonce) => (s, .now 0 nonce)
      | (s, none) => (s, .now 1 [])

/-- DEBUG_RESPONSE (R459, R465). -/
def execDebugResponse (port : Nat) (frame : Frame) (s : State) : Host.Outcome State Fault Refusal :=
  s.onCommand port 6 0x010A frame fun s _ body =>
    if body.length ≠ 96 then (s, .now 2 [])
    else match s.answerDebug (body.take 32) (body.drop 32) with
      | (s, granted) => (s, .now (if granted then 0 else 3) [])

/-- TIME_PORT (R441, R465). -/
def execTimePort (port : Nat) (frame : Frame) (s : State) : Host.Outcome State Fault Refusal :=
  s.onCommand port 6 0x010B frame fun s _ body =>
    let p := leField body 0 1
    if body.length ≠ 1 ∨ 4 ≤ p then (s, .now 2 [])
    else ({ s with plat := { s.plat with time := { s.plat.time with port := some p, lastSync := s.now } } }, .now 0 [])

/-! ## JTAG (R461) -/

/-- The state with the JTAG port changed. -/
def State.modJtag (s : State) (f : Jtag → Jtag) : State := { s with plat := { s.plat with jtag := f s.plat.jtag } }

/-- The root of trust runs, so that its debug unit answers. -/
def State.rootRuns (s : State) : Bool := s.plat.root.phase != .powerUp

/-- An instruction that the combination does not allow acts as BYPASS: its data passes one bit later, the bypass register's zero first. -/
def State.actBypass (s : State) (data : List Byte) : State :=
  let n := data.length
  let v := natOfBytes data
  s.modJtag fun j => { j with ir := 0xFF, bypass := decide (2 ^ (8 * n) ≤ 2 * v), out := bytesOfNat n (2 * v) }

/-- TEST_LOGIC_RESET (R461): IDCODE is selected. -/
def execTestLogicReset (s : State) : Host.Outcome State Fault Refusal :=
  .next (s.modJtag fun j => { j with ir := 1, drive := false, out := [] })

/-- What the boundary-scan cells capture from the connector. -/
def State.capture (s : State) (n : Nat) : State × List Byte :=
  ({ s with model := { s.model with fresh := s.model.fresh + n } }, freeBytes n s.model.fresh)

/-- EXTEST (R461): in manufacturing and returned lifecycle the cells drive the connector. -/
def execExtest (cells : List Byte) (s : State) : Host.Outcome State Fault Refusal :=
  let life := s.plat.root.fuses.lifecycle
  if life = 0 ∨ life = 3 then
    let r := s.capture cells.length
    .next (r.1.modJtag fun j => { j with ir := 0, cells := cells, drive := true, out := r.2 })
  else .next (s.actBypass cells)

/-- IDCODE (R461). -/
def execIdcode (s : State) : Host.Outcome State Fault Refusal :=
  .next (s.modJtag fun j => { j with ir := 1, drive := false, out := bytesOfNat 4 0x0F571C5B })

/-- SAMPLE/PRELOAD (R461). -/
def execSamplePreload (cells : List Byte) (s : State) : Host.Outcome State Fault Refusal :=
  let r := s.capture cells.length
  .next (r.1.modJtag fun j => { j with ir := 2, cells := cells, drive := false, out := r.2 })

/-- DBGREQ (R459, R461): the nonce is shifted out; nothing where the level is refused. -/
def execDbgreq (level : Nat) (s : State) : Host.Outcome State Fault Refusal :=
  if !s.rootRuns then .next s
  else match s.finishFlash.askDebug level with
    | (s, nonce) => .next (s.modJtag fun j => { j with ir := 0x20, drive := false, out := nonce.getD [] })

/-- DBGRESP (R459, R461): the grant status is shifted out. -/
def execDbgresp (key sig : List Byte) (s : State) : Host.Outcome State Fault Refusal :=
  if !s.rootRuns then .next s
  else match s.finishFlash.answerDebug key sig with
    | (s, granted) => .next (s.modJtag fun j => { j with ir := 0x21, drive := false, out := [if granted then 0 else 3] })

/-- A level reaches the tiles (R458): granted, and the wafer is powered. -/
def State.debugReaches (s : State) (level : Nat) : Bool := decide (level ≤ s.plat.root.debug) && s.plat.root.phase != .standby && s.rootRuns

/-- A word of a tile's traces (R458): the frequency trace's ring, `%ftrace`, the fault log, the counters of a port; 0 beyond them. -/
def State.traceWord (s : State) (t item w : Nat) : Word :=
  if item = 0 then (s.tile t).clk.trace.get 0 w
  else if item = 1 then (s.tile t).clk.ftrace
  else if item = 2 then (s.tile t).place.faultLog.getD w 0
  else if item = 3 then (s.eth t).counters.get 0 w
  else if item = 4 then
    match (s.core (t / 4) (t % 4)).evq.ready[w / 2]? with
    | some r => if w % 2 = 0 then r.bits.1 else r.bits.2
    | none => 0
  else 0

/-- TRACE (R458, R461). -/
def execTrace (t item w : Nat) (s : State) : Host.Outcome State Fault Refusal :=
  if s.debugReaches 1 then .next (s.modJtag fun j => { j with ir := 0x30, drive := false, out := bytesOfNat 8 (s.traceWord t item w).toNat })
  else .next (s.actBypass (bytesOfNat 8 0))

/-- HALT (R458, R461): a core is halted, steps once or resumes, for op 0, 1 and 2; a halt wakes the tile, and DEBUG_HALT tells of it. -/
def execHalt (t c op : Nat) (s : State) : Host.Outcome State Fault Refusal :=
  if !s.debugReaches 2 then .next (s.actBypass (bytesOfNat 1 op))
  else
    let s := s.modJtag fun j => { j with ir := 0x31, drive := false, out := [] }
    let halted := (s.core t c).issue.halted
    let set (h st : Bool) (s : State) : State := s.modCore t c fun k => { k with issue := { k.issue with halted := h, stepping := st } }
    if !(s.tile t).place.live || decide (4 ≤ c) then .next s
    else if op = 0 then .next (if halted then s else ((set true false s).notify t c .debugHalt 1).wakeTile t)
    else if op = 1 then .next (if halted then set false true s else s)
    else if op = 2 then .next (set false false s)
    else .next s

/-- BYPASS (R461): a bit passes through the one-bit register. -/
def execBypass (bit : Bool) (s : State) : Host.Outcome State Fault Refusal :=
  .next (s.modJtag fun j =>
    let was := j.ir == 0xFF && j.bypass
    { j with ir := 0xFF, drive := false, bypass := bit, out := [if was then 1 else 0] })

/-! ## Failures in service (R17, R106, R194) -/

/-- TILE_LOST (R17, R429): the tile is dead, and every front-end service tile's core 3 is told. Its tags stay bound until the rollback. -/
def execTileLost (t : Nat) (s : State) : Host.Outcome State Fault Refusal :=
  if !(s.tile t).place.live then .next s
  else
    let s := (s.loseTile t).modTile t fun y => { y with place := { y.place with live := false } }
    .next (s.galleys.serviceTags.foldl (fun s p => match s.tileOf p.2 with
      | some u => s.notify u 3 .tileLost (infoT t 0 0)
      | none => s) s)

/-- A local memory with a 16-byte unit marked uncorrectable (R106). -/
def LocalMem.mark (m : LocalMem) (unit : Nat) : LocalMem :=
  { m with bad := (m.bad.filter (· < unit)) ++ unit :: m.bad.filter (unit < ·) }

/-- SOFT_ERROR (R106): a single-bit error is corrected on read; another leaves its 16-byte unit marked. Spaces are numbered as in R100. -/
def execSoftError (t space c unit : Nat) (bad : Bool) (s : State) : Host.Outcome State Fault Refusal :=
  if !bad || !(s.tile t).place.live || decide (4 ≤ c) then .next s
  else
    let mark (sp : Space) : State := if 16 * unit < sp.size then s.setLocal t c sp ((s.localMem t c sp).mark unit) else s
    .next (if space = Space.t.code then mark .t else if space = Space.a.code then mark .a else if space = Space.c.code then mark .c
      else if space = Space.w.code then mark .w else if space = Space.x.code then mark .x else s)

/-- INTERNAL_ERROR (R194): MACHINE_CHECK with an internal reason. -/
def execInternalError (t c reason : Nat) (s : State) : Host.Outcome State Fault Refusal :=
  .next (if (s.tile t).place.live && decide (c < 4) then s.notify t c .machineCheck (word (2 ^ 16 * (reason % 65536))) else s)

end Sys2Proof.Machine
end

