-- ==== Sys2Proof/Machine/Auto.lean ====
section
/-! DEFINITION. What happens where the schedule is empty (assumption 5), and how words come to be fetched (assumption 8). -/

namespace Sys2Proof.Machine

/-- Cycles of a tile's clock from one reference time to another: 62.5 MHz × (step + 1), divided by 4 while throttled (R42, R443). -/
def TileClock.cycles (k : TileClock) (first last : Nat) : Nat :=
  let d := if k.thr then 64 else 16
  last * (k.step + 1) / d - first * (k.step + 1) / d

/-- A power-gated tile (R18, R447): a spare, or a tile of no chase with nothing to run. -/
def Tile.powerGated (y : Tile) : Bool :=
  !y.place.working || (y.place.chase.isNone && y.cores.all fun c => c.2.npend == 0 && c.2.ctxs.all fun x => x.2.status == .free)

/-- A tile's cores after the time between two reference times. -/
def Tile.elapse (y : Tile) (first last : Nat) : Tile :=
  let n := y.clk.cycles first last
  if !y.place.live || y.powerGated || n == 0 then y
  else if y.clk.asleep then { y with cores := y.cores.map fun p => (p.1, p.2.tickGated n) }
  else { y with cores := [0, 1, 2, 3].foldl (fun m c => m.put c ((y.core c).tick n)) y.cores }

/-- A tile's watchdogs count reference time, but while they pause (R449). -/
def State.watchTime (s : State) (ns t : Nat) (y : Tile) : Tile :=
  if y.clk.watch.isEmpty then y
  else
    let count (w : Nat × Watch) : Nat × Watch := if s.watchPaused t w.2 then w else (w.1, { w.2 with counted := w.2.counted + ns })
    { y with clk := { y.clk with watch := y.clk.watch.map count } }

/-- A window of the rebalancer in ns (R373). -/
def windowNs : Nat := 64000

/-- The occupancy of a tile's ports over a time is added to what its window has so far (R373): a resident token counts as one. -/
def Gauge.add (g : Gauge) (y : Tile) (ns : Nat) : Gauge :=
  { g with
    load := y.port.inputs.foldl (fun (m : Sparse Nat) p => if p.2.arc then m.set 0 p.1 (m.get 0 p.1 + p.2.queue.length * ns) else m) g.load
    low := min g.low y.clk.step }

/-- The window under way ends, as window `k` (R373): the largest mean, in sixteenths of a token, and the lowest step. -/
def Gauge.close (g : Gauge) (y : Tile) (k : Nat) : Gauge :=
  { load := [], low := y.clk.step, window := k, occ := g.load.foldl (fun n p => max n (16 * p.2 / windowNs)) 0, lowest := g.low }

/-- What a tile measures while its `%rtime` goes from one value to another (R373). A time without a boundary, or with one. -/
def Tile.measure (y : Tile) (first last : Nat) : Tile :=
  if y.place.chase.isNone then y
  else if first / windowNs = last / windowNs then { y with gauge := y.gauge.add y (last - first) }
  else
    let k := last / windowNs
    { y with gauge := (((y.gauge.add y (k * windowNs - first)).close y k).add y (last - k * windowNs)) }

/-- Reference time passes (R441), and with it the cycles of every core and what the rebalancer's windows measure. -/
def State.passTime (s : State) (ns : Nat) : State :=
  let z : State := { s with now := s.now + ns }
  { z with tiles := s.tiles.map fun p =>
      (p.1, s.watchTime ns p.1 ((p.2.measure (s.rtime p.1) (z.rtime p.1)).elapse s.now (s.now + ns))) }

/-- A step that the schedule leaves open: it is counted, and takes 2 ns: a cycle at the step of reset. -/
def State.openTurn (s : State) : State := ({ s with model := { s.model with turn := s.model.turn + 1 } } : State).passTime 2

/-- What an open step comes to. -/
inductive OpenMove where
  | core (t c : Nat)
  | moved (s : State)

/-- The cores of the module that have a context to serve. -/
def State.busyCores (s : State) : List (Nat × Nat) :=
  s.tiles.flatMap fun y => (List.range 4).filterMap fun c =>
    if s.coreRuns y.1 c && ((s.settle y.1).next y.1 c).isSome then some (y.1, c) else none

/-- The state that a step answers, where it is another. -/
def movedTo (s : State) (r : Host.Outcome State Fault Refusal) : Option State :=
  match r with
  | .next s' => if s' = s then none else some s'
  | .fault _ | .refused _ => none

/-- The first of some steps that changes the state. -/
def State.firstMove (s : State) : List (State → Host.Outcome State Fault Refusal) → Option State
  | [] => none
  | f :: fs => match movedTo s (f s) with
    | some s' => some s'
    | none => s.firstMove fs

/-- The steps of results, traps and notices of a tile. -/
def State.resultMoves (s : State) (t : Nat) : List (State → Host.Outcome State Fault Refusal) :=
  ((s.ctxList t).flatMap fun u =>
    ((List.range (s.ctx u).flights.length).map fun n => execResultReturn u.tile u.core u.ctx n) ++
      [execTrapEntry u.tile u.core u.ctx, execHandlerBudget u.tile u.core u.ctx, execSleepWake u.tile u.core u.ctx]) ++
  (List.range 4).flatMap fun c => [execTimer t c, execTakeNotice t c]

/-- The steps that deliver a message. -/
def Msg.move (n : Nat) (m : Msg) : List (State → Host.Outcome State Fault Refusal) :=
  match m with
  | .token _ _ _ _ => [execStubForward n, execTokenArrival n]
  | .slot _ _ _ _ _ => [execStubForward n, execSlotReturn n]
  | .formeSlot _ _ => [execSlotReturn n]
  | .mail _ _ _ _ _ _ _ => [execStubForward n, execMailArrival n]
  | .mailAnswer _ _ _ _ _ _ => [execStubForward n, execMailAnswer n]
  | .contextFree _ _ _ => [execStubForward n, execNoticeArrival n]
  | .withdrawal _ _ => [execStubForward n, execMailWithdrawal n]
  | .stealAsk t c _ => [execWalkerArbiterStep t c]
  | .stealAnswer _ _ _ _ _ => [execStealAnswerArrival n]
  | .walkNotice _ _ _ => [execWalkNotice n]
  | .retire _ _ _ _ _ _ => [execRetirementReport n]
  | .dramRequest a r =>
    [match r.op with | 0 => execDramRead a 0 | 1 => execDramWrite a 0 | 2 => execDramAmo a 0 | 3 => execDramGather a 0 | _ => execDramFlush a 0]
  | .dramReply _ _ _ _ _ _ _ => [execDramReply n]
  | .invalidate _ _ _ _ _ _ => [execDupInvalidation n]
  | .invalidated _ _ _ _ _ _ => [execDupAck n]
  | .shoot t c x _ _ _ => [execXlateShootdown t c x]
  | .shot _ _ _ _ _ _ => [execShootdownAck n]
  | .seam _ _ _ _ _ _ => [execStubForward n, execSeamArrival n]
  | .seamAck _ _ => [execSeamAck n]
  | .proofReport c _ _ => [execCutComplete c]
  | .heartbeat _ _ _ _ _ => [execHeartbeatArrival n]
  | .timing _ _ _ => [execTimingToken n]
  | .backing _ => []

/-- A sleeping tile that a notice or a ready context is to wake (R447). -/
def Tile.stirs (y : Tile) : Bool :=
  y.clk.asleep && y.cores.any fun c => c.2.npend != 0 || c.2.ctxs.any fun x => x.2.status == .ready

/-- The steps of the engines of a tile. -/
def State.tileMoves (s : State) (t : Nat) : List (State → Host.Outcome State Fault Refusal) :=
  let y := s.tile t
  let x := y.eng.xnode
  ((List.range 8).flatMap fun h => [execCopyRound t h, execCopyRoundVoid t h, execCopyDataError t h, execCopyTransferComplete t h]) ++
  ((List.range 4).flatMap fun c => (s.core t c).streams.flatMap fun u =>
    [execStreamElementRead t c u.1, execStreamRoundCommit t c u.1, execStreamFault t c u.1]) ++
  ((List.range 4).flatMap fun c => [execWalkerArbiterStep t c, execAutoStealRequest t c]) ++
  ((List.range 4).flatMap fun c => [execMatrixCommandComplete t c, execMatrixOperand t c, execMatrixDataError t c]) ++
  [execMatrixStep t, execMwloadToken t] ++
  ((List.range 8).flatMap fun q => [execQuireTurn t q, execVectorUnitArrival t q]) ++
  [execColophonStep t, execProofStep t, execProbeStep t, execFiringStart t, execContextFreeNotice t] ++
  ((List.range y.port.reservations.length).map fun k => execReservationLapse t k) ++
  ((s.ctxList t).filterMap fun u => match (s.ctx u).waits with
    | some (.xlate va write _ _) => some (execTranslationWalk t va write)
    | _ => none) ++
  ((headRequests [] x.dreqs).filterMap fun r => r.untranslated.map fun w => execTranslationWalk t w.va r.writes) ++
  [execStepChange t, execClockHoldover t] ++ (if y.stirs then [execTileWake t] else [])

/-- The micro-kernel's step for a packet that a service tile's snapshot holds (R390, R394). -/
def packetMove (g : Nat) (p : Packet) : List (State → Host.Outcome State Fault Refusal) :=
  match packetField p 0 1 with
  | 0 => [execGalleyNop g p]
  | 1 => [execImpose g p]
  | 2 => [execInput g p]
  | 3 => [execColophon g p]
  | 4 => [execSwap g p]
  | 5 => [execShrink g p]
  | 6 => [execRelease g p]
  | 7 => [execBarrier g p]
  | _ => [execGalleyNop g p]

/-- An accepted packet as its slot's snapshot holds it (R394). -/
def State.snapshotPacket (s : State) (c : OpenCmd) : Packet :=
  { index := c.index, bytes := s.bytesLocal c.tile 0 .t noKey c.area 64 }

/-- The steps of the galley service and of the micro-kernel behind it. -/
def State.galleyMoves (s : State) : List (State → Host.Outcome State Fault Refusal) :=
  let slots := s.galleys.slots.filter fun k => k.2.mapped
  (slots.flatMap fun k => [execPacketAccept k.1, execAcceptFault k.1]) ++
  s.galleys.kicks.map (fun k => execKick k.1 k.2) ++ (List.range 4).map execKickPending ++
  s.galleys.jobs.map continueJob ++
  s.galleys.open_.flatMap fun o => packetMove o.galley (s.snapshotPacket o)

/-- The steps of chases: rollbacks that are due, migrations, cuts, reservations (R377, R425, R429). -/
def State.chaseMoves (s : State) : List (State → Host.Outcome State Fault Refusal) :=
  (s.chases.filter (·.2.struck)).map (fun c => execRollback c.1) ++
  (s.rebals.filter (·.2.migration.isSome)).flatMap (fun r =>
    [execMigrationFreeze r.1, execMigrationQuiesced r.1, execMigrationRebind r.1, execStubClose r.1]) ++
  (s.chases.filter (·.2.run.isSome)).map (fun c => execRebalancerWindow c.1 ((s.windowOf c.1).getD 0)) ++
  s.chases.map fun c => execFoldReservationLapse c.1

/-- The steps of the module's other parts. -/
def State.moduleMoves (s : State) : List (State → Host.Outcome State Fault Refusal) :=
  (s.actors.flatMap fun a => (List.range a.2.owing.length).map fun k => execDupCollapse a.1 k) ++
  (s.plat.eth.flatMap fun e => e.2.stuck.map (fun r => execIngestRingFault e.1 r.1) ++ e.2.pausing.map fun r => execPauseResume e.1 r.1) ++
  [execThrottleRelease, execStewardHung, execTimePortLoss, fun s => .next s.finishFlash]

/-- What happens in an open step: results first, then by turns a core that can issue and the parts of the module. -/
def State.choose (s : State) : OpenMove :=
  let ts := s.tiles.map Prod.fst
  match s.firstMove (ts.flatMap s.resultMoves) with
  | some s' => .moved s'
  | none =>
    let cores := s.busyCores
    let parts : Option State :=
      s.firstMove (s.chaseMoves ++ (s.net.mapIdx Msg.move).flatten ++ ts.flatMap s.tileMoves ++ s.galleyMoves ++ s.moduleMoves)
    let core : Option (Nat × Nat) := cores[s.model.turn / 2 % (max 1 cores.length)]?
    if s.model.turn % 2 = 0 then
      match core, parts with
      | some p, _ => .core p.1 p.2
      | none, some s' => .moved s'
      | none, none => .moved s
    else
      match parts, core with
      | some s', _ => .moved s'
      | none, some p => .core p.1 p.2
      | none, none => .moved s

/-- A tile found live by boot, its core 0 running context 0 as a boot notice leaves it (R454, R460): supervisor, entered for
FIRMWARE_STATE on a free context. -/
def bootTile : Tile :=
  let ts : TState := { TState.reset with priv := true, te := false, intrap := true, notice := true, alloc := true }
  let k : Ctx := { Ctx.reset with
    status := .ready, trap := { TrapRegs.reset with cause := 0x3F, einfo := 1, ts := ts } }
  { Tile.reset with
    place := { Tile.reset.place with live := true, working := true }
    cores := [(0, { Core.reset with ctxs := [(0, k)] })] }

/-- Words stored in X from an address. -/
def storeWords (x : Memory) (a : Nat) : List Parcel → Memory
  | [] => x
  | w :: ws => storeWords (x.writeNat a 2 w.toNat) (a + 2) ws

/-- The state in which tile 0's core 0 fetches the words next (assumption 8). -/
def State.placeWords (s : State) (ws : List Parcel) : State :=
  let y := match s.tiles.find 0 with | some y => if y.place.live then y else bootTile | none => bootTile
  let y := { y with x := storeWords y.x (xAddr ((y.core 0).ctx 0).pc) ws }
  { s.setTile 0 y with
    model := { s.model with agenda := [.issue 0 0] }
    plat := { s.plat with root := { s.plat.root with phase := .released } } }

end Sys2Proof.Machine
end

