-- ==== Sys2Proof/Machine/VectorMem.lean ====
section
/-! DEFINITION. The vector unit: loads and stores, sorted coordinates, the sparse accumulator and vector streams (R280 to R287). -/

namespace Sys2Proof.Machine

/-! ## Loads and stores (R280 to R282) -/

/-- A vector access with no active lane performs nothing and raises nothing (R282); else its registers are used as any
instruction's are. -/
def vmemMeaning (o : Opnd) (use : Use) (body : State → State × Act) (s : State) : Host.Outcome State Fault Refusal :=
  meaning o ⟨[], [], [], [], useMask o, []⟩ (fun s =>
    if (s.activeLanes o (laneBits (vfmt o))).isEmpty then (s, .done)
    else if s.me.blocked use then (s, .stall)
    else match s.gate s.cur use with
      | some a => (s, a)
      | none =>
        let r := body s
        if r.2 == .done then (r.1.consume s.cur use, .done) else r) s

/-- Bytes of a lane in memory; a nibble lies in one byte. -/
def laneSize (fmt : Nat) : Nat := fmtBytes fmt

/-- Where lane `i` lies: its byte, and its half where it is a nibble (R280). -/
def lanePlace (fmt : Nat) (base : Word) (off : Nat) : Nat × Nat :=
  if fmt = 13 then
    let h := (2 * base.toNat + off) % 2 ^ 65
    (h / 2, h % 2)
  else ((base.toNat + off) % 2 ^ 64, 0)

/-- The offset of lane `i` in the plain form, in bytes or in nibbles. -/
def plainOff (fmt i : Nat) : Nat := if fmt = 13 then i else i * laneSize fmt

/-- Where lane `i` of an access in a space lies. -/
abbrev Places := State → Nat → Nat × Nat

/-- VLD and VST: ga + imm + i × s. -/
def plainPlace (o : Opnd) : Places := fun s i => lanePlace (vfmt o) (s.rg (an o) + immW o) (plainOff (vfmt o) i)

/-- VLDS and VSTS: ga + imm + i × gb. -/
def stridePlace (o : Opnd) : Places := fun s i => lanePlace (vfmt o) (s.rg (an o) + immW o) (i * (s.rg (bn o)).toNat)

/-- VLDG and VSTG: ga + imm + b_i × s. -/
def gatherPlace (o : Opnd) : Places := fun s i =>
  lanePlace (vfmt o) (s.rg (an o) + immW o) (plainOff (vfmt o) (laneAt (laneBits (vfmt o)) (s.vn (bn o)) i))

/-- The order of R105 among the faults of a vector access. -/
def vectorOrder : List Cause := [.windowFormat, .spaceRange, .windowCross, .align, .quoinHit]

/-- The fault of an access whose lanes have the faults given, lowest lane first: the first cause in the order of R105, and the
lowest lane within it (R282). -/
def firstFault (fs : List (Cause × Word)) : Option (Cause × Word) :=
  (vectorOrder.filterMap fun c => fs.find? fun f => f.1 == c).head?

/-- The fault of a lane's own access. `cross`: a lane beyond the space straddles, since a lower lane of a contiguous access is
valid. -/
def State.laneFault (s : State) (sp : Space) (fmt a : Nat) (write cross : Bool) : Option (Cause × Word) :=
  let n := laneSize fmt
  let info := infoM a sp.code (sizeCode n) write
  match rangeFault sp a n with
  | some c => some (if cross then .windowCross else c, info)
  | none => if a % n ≠ 0 then some (.align, info) else s.quoinFault s.cur.tile s.cur.core sp a n write

/-- The fault of a vector access in a space. -/
def State.vectorFault (s : State) (o : Opnd) (sp : Space) (at_ : Places) (plain write : Bool) : Option (Cause × Word) :=
  let fmt := vfmt o
  let ls := s.activeLanes o (laneBits fmt)
  let first := ls.headD 0
  let ok := decide ((at_ s first).1 < sp.size)
  firstFault (ls.filterMap fun i => s.laneFault sp fmt (at_ s i).1 write (plain && ok && i != first))

/-- The space of a vector access (R280). -/
def vspace (o : Opnd) : Space := spaceOf (fxBits o 2 0)

/-- The data error of a load of bytes at the places given, the first of them (R140, R282). -/
def State.vectorBad (s : State) (sp : Space) (ps : List (Nat × Nat)) : Option (Cause × Word) :=
  (ps.filterMap fun p => (s.badLocal s.cur.tile s.cur.core sp s.myKey p.1 p.2).map fun unit =>
    (Cause.localEcc, infoM unit sp.code (sizeCode p.2) false)).head?

/-- The effect of a vector load. -/
def vloadBody (o : Opnd) (at_ : Places) (plain : Bool) (s : State) : State × Act :=
  let sp := vspace o
  let fmt := vfmt o
  let w := laneBits fmt
  match s.vectorFault o sp at_ plain false with
  | some (c, i) => (s, .trap c i)
  | none =>
    match s.vectorBad sp ((s.activeLanes o w).map fun i => ((at_ s i).1, laneSize fmt)) with
    | some (c, i) => (s.launch (.v (dn o)) (.dataError c i) o.len, .done)
    | none => (s.vlanes o w fun i =>
        let p := at_ s i
        (s.readLocal s.cur.tile s.cur.core sp s.myKey p.1 (laneSize fmt) / 16 ^ p.2, 0), .done)

/-- The state with one lane's bits stored at a place (R280, R282). -/
def State.storeLane (s : State) (sp : Space) (fmt : Nat) (p : Nat × Nat) (v : Nat) : State :=
  let old := s.readLocal s.cur.tile s.cur.core sp s.myKey p.1 1
  let v := if fmt = 13 then (if p.2 = 0 then old / 16 * 16 + v % 16 else old % 16 + 16 * (v % 16)) else v
  s.writeLocal s.cur.tile s.cur.core sp s.myKey p.1 (laneSize fmt) v

/-- The bytes that elements at some places cover whole between them; of a nibble, its byte where the other half is written too. -/
def wholeBytes (nibbles : Bool) (size : Nat) (ps : List (Nat × Nat)) : List (Nat × Nat) :=
  if nibbles then (ps.filter fun p => p.2 == 0 && ps.contains (p.1, 1)).map fun p => (p.1, 1) else ps.map fun p => (p.1, size)

/-- A contiguous store is one event for each unit, and leaves a unit that its lanes cover whole correct (R106, R282). -/
def State.healLanes (s : State) (sp : Space) (rs : List (Nat × Nat)) : State := s.heal s.cur.tile s.cur.core sp s.myKey rs

/-- The effect of a vector store: the highest lane of those that name a byte leaves its value (R282). -/
def vstoreBody (o : Opnd) (at_ : Places) (plain : Bool) (s : State) : State × Act :=
  let sp := vspace o
  let fmt := vfmt o
  let w := laneBits fmt
  match s.vectorFault o sp at_ plain true with
  | some (c, i) => (s, .trap c i)
  | none =>
    let v := s.vn (dn o)
    let s1 := (s.activeLanes o w).foldl (fun s' i => s'.storeLane sp fmt (at_ s i) (laneAt w v i)) s
    (if plain then s1.healLanes sp (wholeBytes (fmt == 13) (laneSize fmt) ((s.activeLanes o w).map (at_ s))) else s1, .done)

/-- Registers of the loads and stores: g registers and vector sources. -/
def useVld (o : Opnd) (gs vs : List Nat) : Use := ⟨gs, [], vs, [dn o], useMask o, []⟩
def useVst (o : Opnd) (gs vs : List Nat) : Use := ⟨gs, [], dn o :: vs, [], useMask o, []⟩

/-- VLD (R280, R282). -/
def execVld (o : Opnd) (s : State) : Host.Outcome State Fault Refusal :=
  vmemMeaning o (useVld o [an o] []) (vloadBody o (plainPlace o) true) s

/-- VLDS (R280, R282). -/
def execVlds (o : Opnd) (s : State) : Host.Outcome State Fault Refusal :=
  vmemMeaning o (useVld o [an o, bn o] []) (vloadBody o (stridePlace o) false) s

/-- VLDG (R280, R282). -/
def execVldg (o : Opnd) (s : State) : Host.Outcome State Fault Refusal :=
  vmemMeaning o (useVld o [an o] [bn o]) (vloadBody o (gatherPlace o) false) s

/-- VST (R280, R282). -/
def execVst (o : Opnd) (s : State) : Host.Outcome State Fault Refusal :=
  vmemMeaning o (useVst o [an o] []) (vstoreBody o (plainPlace o) true) s

/-- VSTS (R280, R282). -/
def execVsts (o : Opnd) (s : State) : Host.Outcome State Fault Refusal :=
  vmemMeaning o (useVst o [an o, bn o] []) (vstoreBody o (stridePlace o) false) s

/-- VSTG (R280, R282). -/
def execVstg (o : Opnd) (s : State) : Host.Outcome State Fault Refusal :=
  vmemMeaning o (useVst o [an o] [bn o]) (vstoreBody o (gatherPlace o) false) s

/-! ## Windows (R281) -/

/-- The first element of a vector window access. -/
def State.vElement (s : State) (o : Opnd) : Nat := (s.rg (an o) + immW o).toNat

/-- The fault of a vector window access, which is checked as one access from its lowest active lane to its highest (R282). -/
def State.vWindowFault (s : State) (o : Opnd) (write : Bool) : Option (Cause × Word) :=
  let n := fxBits o 6 3
  let w := s.window n
  let e0 := s.vElement o
  let size := fmtBytes w.fmt
  match w.fault with
  | some k => some (.windowFormat, word (n + 16 * k))
  | none =>
    let ls := s.activeLanes o (laneBits (vfmt o))
    firstFault (ls.filterMap fun i =>
      if w.length ≤ e0 + ls.headD 0 then some (.spaceRange, infoM (e0 + i) 7 (sizeCode size) write)
      else if w.length ≤ e0 + i then some (.windowCross, infoM (e0 + i) 7 (sizeCode size) write)
      else s.quoinFault s.cur.tile s.cur.core w.space (w.place (e0 + i)).1 size write)

/-- VLDF (R281, R282): a load rounds by PX.M, else by `%fmode` (R86). -/
def execVldf (o : Opnd) (s : State) : Host.Outcome State Fault Refusal :=
  vmemMeaning o (useVld o [an o] []) (fun s =>
    match s.vWindowFault o false with
    | some (c, i) => (s, .trap c i)
    | none =>
      let w := s.window (fxBits o 6 3)
      let e0 := s.vElement o
      let b := laneBits (vfmt o)
      match s.vectorBad w.space ((s.activeLanes o b).map fun i => ((w.place (e0 + i)).1, fmtBytes w.fmt)) with
      | some (c, i) => (s.launch (.v (dn o)) (.dataError c i) o.len, .done)
      | none => (s.vlanes o b fun i => convert w.fmt (vfmt o) (s.vmode o) w.scale 0 .vcvt (s.windowBits w (e0 + i)), .done)) s

/-- VSTF (R281, R282). -/
def execVstf (o : Opnd) (s : State) : Host.Outcome State Fault Refusal :=
  vmemMeaning o (useVst o [an o] []) (fun s =>
    match s.vWindowFault o true with
    | some (c, i) => (s, .trap c i)
    | none =>
      let w := s.window (fxBits o 6 3)
      let e0 := s.vElement o
      let b := laneBits (vfmt o)
      let v := s.vn (dn o)
      let mode := if o.mf 2 0 = 0 then roundMode w.round s.me.sys.fmode else o.mf 2 0
      let sat : Satur := if w.sat then .on else .off
      let s1 := (s.activeLanes o b).foldl (fun s' i =>
        let r := convert (vfmt o) w.fmt mode 0 w.scale sat (laneAt b v i)
        (s'.windowStore w (e0 + i) r.1).addFlags r.2) s
      (s1.healLanes w.space (wholeBytes (w.fmt == 13 && w.pack == 0) (fmtBytes w.fmt) ((s.activeLanes o b).map fun i => w.place (e0 + i))), .done)) s

/-! ## Sorted coordinates (R284) -/

/-- The sentinel of a coordinate format. -/
def sentinel (w : Nat) : Nat := 2 ^ w - 1

/-- The present lanes of an operand with their coordinates, ascending. -/
def State.present (s : State) (o : Opnd) (v : Nat) : List (Nat × Nat) :=
  let w := laneBits (vfmt o)
  ((s.activeLanes o w).map fun i => (i, laneAt w v i)).filter fun p => p.2 != sentinel w

/-- Coordinates that rise strictly. -/
def rising : List Nat → Bool
  | a :: b :: l => decide (a < b) && rising (b :: l)
  | [_] | [] => true

/-- Two rising lists merged, each value once; `n` bounds the values. -/
def mergeUp : Nat → List Nat → List Nat → List Nat
  | 0, _, _ => []
  | n + 1, a :: l, b :: m =>
    if a < b then a :: mergeUp n l (b :: m) else if b < a then b :: mergeUp n (a :: l) m else a :: mergeUp n l m
  | _ + 1, [], m => m
  | _ + 1, l, [] => l

/-- VISECT (R284). -/
def execVisect (o : Opnd) (s : State) : Host.Outcome State Fault Refusal :=
  meaning o (useVcmp o) (fun s =>
    let p := s.present o (s.vn (an o))
    let q := s.present o (s.vn (bn o))
    if !(rising (p.map Prod.snd) && rising (q.map Prod.snd)) then (s, .trap .vectorShape (Instr.visect o).info)
    else
      let hits := p.filter fun x => (q.map Prod.snd).contains x.2
      (s.kput (dn o) (laneMask (laneBits (vfmt o)) fun i => (hits.map Prod.fst).contains i) o.len, .done)) s

/-- VUNION (R284). -/
def execVunion (o : Opnd) (s : State) : Host.Outcome State Fault Refusal :=
  meaning o (useV o [an o, bn o] [dn o]) (fun s =>
    let w := laneBits (vfmt o)
    let p := (s.present o (s.vn (an o))).map Prod.snd
    let q := (s.present o (s.vn (bn o))).map Prod.snd
    if !(rising p && rising q) then (s, .trap .vectorShape (Instr.vunion o).info)
    else
      let u := mergeUp 256 p q
      (s.vput o (joinLanes w ((List.range (1024 / w)).map fun i => u.getD i (sentinel w))), .done)) s

/-! ## The sparse accumulator (R285, R286) -/

/-- The sparse accumulator of the core under way changed. -/
def State.modSpa (s : State) (f : Spa → Spa) : State := s.modMyCore fun k => { k with spa := f k.spa }

/-- VSPACLR (R286). -/
def execVspaclr (o : Opnd) (s : State) : Host.Outcome State Fault Refusal :=
  meaning o Use.none (fun s => (s.modSpa fun _ => { isS32 := vfmt o == 7, entries := [] }, .done)) s

/-- A value added to a coordinate (R286). -/
def Spa.add (p : Spa) (mode coord v : Nat) : Spa × Flagset :=
  match p.entries.find coord with
  | none => ({ p with entries := p.entries.put coord (BitVec.ofNat 32 v) }, 0)
  | some old =>
    let r := if p.isS32 then sat32 (old.toInt + intVal 7 v) else addLane 0 mode old.toNat v
    ({ p with entries := p.entries.put coord (BitVec.ofNat 32 r.1) }, r.2)

/-- VSPAACC (R286). -/
def execVspaacc (o : Opnd) (s : State) : Host.Outcome State Fault Refusal :=
  meaning o (useV o [an o, bn o] []) (fun s =>
    let p := s.myCore.spa
    let x := s.vn (an o)
    let y := s.vn (bn o)
    let ls := ((s.activeLanes o 32).map fun i => (laneAt 32 x i, laneAt 32 y i)).filter fun l => l.1 != sentinel 32
    let new := ((ls.map Prod.fst).filter fun c => (p.entries.find c).isNone).eraseDups
    if (vfmt o == 7) != p.isS32 then (s, .trap .vectorShape (Instr.vspaacc o).info)
    else if 1024 < p.entries.length + new.length then (s, .trap .spaOverflow (word p.entries.length))
    else
      let r := ls.foldl (fun (a : Spa × Flagset) l => let q := a.1.add (s.vmode o) l.1 l.2; (q.1, a.2 ||| q.2)) (p, 0)
      ((s.modSpa fun _ => r.1).addFlags r.2, .done)) s

/-- VSPAGET (R286). -/
def execVspaget (o : Opnd) (s : State) : Host.Outcome State Fault Refusal :=
  meaning o (useV1 o) (fun s =>
    let p := s.myCore.spa
    let x := s.vn (an o)
    if (vfmt o == 7) != p.isS32 then (s, .trap .vectorShape (Instr.vspaget o).info)
    else (s.vlanes o 32 fun i => ((p.entries.get 0 (laneAt 32 x i)).toNat, 0), .done)) s

/-- VSPADRAIN (R286). -/
def execVspadrain (o : Opnd) (s : State) : Host.Outcome State Fault Refusal :=
  meaning o ⟨[], [an o], [], [dn o, dn o + 1], [], []⟩ (fun s =>
    let es := s.myCore.spa.entries
    let m := es.take 32
    let cs := joinLanes 32 ((List.range 32).map fun i => (m.map Prod.fst).getD i (sentinel 32))
    let vs := joinLanes 32 ((List.range 32).map fun i => ((m.map Prod.snd).getD i 0).toNat)
    let s := s.modSpa fun p => { p with entries := es.drop 32 }
    let s := (s.vput o cs).lv (dn o + 1) (.vec (BitVec.ofNat 1024 vs)) o.len
    (s.lg (an o) (.word (word m.length)) o.len, .done)) s

/-! ## Vector streams (R287) -/

/-- VPOP's stream register `a` and destination, before its head is looked at. -/
def popGate (o : Opnd) (s : State) : Option Act :=
  match s.myCore.binding s.cur.ctx true (an o) with
  | none => some (.trap .streamUnbound (streamInfo true (an o) 0))
  | some b =>
    if b.write then some (.trap .streamDirection (streamInfo true (an o) 0))
    else match s.myCore.binding s.cur.ctx true (dn o) with
      | some d => some (.trap .streamDirection (streamInfo true (dn o) (if d.write then 0 else 128)))
      | none => none

/-- The head of the stream of `a` is taken. -/
def State.popHead (s : State) (n : Nat) : State := s.modMyCore fun k => k.modBinding (unitOf true n) Binding.take

/-- The result register `b` of VPOP, where it names one. -/
def State.popReport (s : State) (o : Opnd) (n : Nat) : State :=
  if bn o = 0 then s else s.lg (bn o) (.word (word n)) o.len

/-- VPOP (R287). -/
def execVpop (o : Opnd) (s : State) : Host.Outcome State Fault Refusal :=
  meaning o ⟨[], if bn o = 0 then [] else [bn o], [], [], useMask o, []⟩ (fun s =>
    if s.me.inFlight (.v (an o)) || s.me.inFlight (.v (dn o)) then (s, .stall)
    else match popGate o s with
    | some a => (s, a)
    | none =>
      let w := laneBits (vfmt o)
      match (s.myCore.binding s.cur.ctx true (an o)).bind fun b => b.buf.head? with
      | none => (s, .wait (.streamRead (unitOf true (an o))))
      | some (.elem v) => (((s.popHead (an o)).vlanes o w fun i => (laneAt w v i, 0)).popReport o 0, .done)
      | some (.stop l) =>
        if bn o = 0 then (s, .trap .streamStop (streamInfo true (an o) (256 * l)))
        else ((s.popHead (an o)).popReport o (l + 1), .done)
      | some .terminal =>
        if bn o = 0 then (s, .trap .streamStop (streamInfo true (an o) (256 * 3)))
        else (s.popReport o 4, .done)
      | some (.bad c i) => (s, .trap c i)) s

/-- The bits of the active lanes, as VPUSH writes them. -/
def State.keepBits (s : State) (o : Opnd) : Nat :=
  let w := laneBits (vfmt o)
  joinLanes w ((List.range (1024 / w)).map fun i => if s.active o w i then 2 ^ w - 1 else 0)

/-- VPUSH (R287). -/
def execVpush (o : Opnd) (s : State) : Host.Outcome State Fault Refusal :=
  meaning o (useV o [an o] [dn o]) (fun s =>
    match s.myCore.binding s.cur.ctx true (dn o) with
    | none => (s, .trap .streamUnbound (streamInfo true (dn o) 0))
    | some _ =>
      (s.appendTo true (dn o) (s.vn (an o)) (if s.keepBits o = 2 ^ 1024 - 1 then none else some (s.keepBits o)), .done)) s

end Sys2Proof.Machine
end

