-- ==== Sys2Proof/Machine/Dispatch.lean ====
section
/-! DEFINITION. Dispatch: one arm for each constructor of `Instr`. -/

namespace Sys2Proof.Machine

def exec (i : Instr) (s : State) : Host.Outcome State Fault Refusal :=
  match i with
  | .add o => Sys2Proof.Machine.execAdd o s
  | .sub o => Sys2Proof.Machine.execSub o s
  | .and o => Sys2Proof.Machine.execAnd o s
  | .or o => Sys2Proof.Machine.execOr o s
  | .xor o => Sys2Proof.Machine.execXor o s
  | .shl o => Sys2Proof.Machine.execShl o s
  | .shr o => Sys2Proof.Machine.execShr o s
  | .sar o => Sys2Proof.Machine.execSar o s
  | .slt o => Sys2Proof.Machine.execSlt o s
  | .sltz o => Sys2Proof.Machine.execSltz o s
  | .andn o => Sys2Proof.Machine.execAndn o s
  | .orn o => Sys2Proof.Machine.execOrn o s
  | .addi o => Sys2Proof.Machine.execAddi o s
  | .andi o => Sys2Proof.Machine.execAndi o s
  | .xori o => Sys2Proof.Machine.execXori o s
  | .slti o => Sys2Proof.Machine.execSlti o s
  | .movi o => Sys2Proof.Machine.execMovi o s
  | .shli o => Sys2Proof.Machine.execShli o s
  | .shri o => Sys2Proof.Machine.execShri o s
  | .sari o => Sys2Proof.Machine.execSari o s
  | .mov o => Sys2Proof.Machine.execMov o s
  | .sel o => Sys2Proof.Machine.execSel o s
  | .sext o => Sys2Proof.Machine.execSext o s
  | .zext o => Sys2Proof.Machine.execZext o s
  | .ld o => Sys2Proof.Machine.execLd o s
  | .st o => Sys2Proof.Machine.execSt o s
  | .ldw o => Sys2Proof.Machine.execLdw o s
  | .stw o => Sys2Proof.Machine.execStw o s
  | .ldq o => Sys2Proof.Machine.execLdq o s
  | .stq o => Sys2Proof.Machine.execStq o s
  | .lea o => Sys2Proof.Machine.execLea o s
  | .br o => Sys2Proof.Machine.execBr o s
  | .call o => Sys2Proof.Machine.execCall o s
  | .bz o => Sys2Proof.Machine.execBz o s
  | .bnz o => Sys2Proof.Machine.execBnz o s
  | .bltz o => Sys2Proof.Machine.execBltz o s
  | .bgez o => Sys2Proof.Machine.execBgez o s
  | .beq o => Sys2Proof.Machine.execBeq o s
  | .bne o => Sys2Proof.Machine.execBne o s
  | .blt o => Sys2Proof.Machine.execBlt o s
  | .bge o => Sys2Proof.Machine.execBge o s
  | .nop o => Sys2Proof.Machine.execNop o s
  | .jr o => Sys2Proof.Machine.execJr o s
  | .callr o => Sys2Proof.Machine.execCallr o s
  | .ret o => Sys2Proof.Machine.execRet o s
  | .endh o => Sys2Proof.Machine.execEndh o s
  | .switch o => Sys2Proof.Machine.execSwitch o s
  | .loop o => Sys2Proof.Machine.execLoop o s
  | .mul o => Sys2Proof.Machine.execMul o s
  | .mulh o => Sys2Proof.Machine.execMulh o s
  | .mulhz o => Sys2Proof.Machine.execMulhz o s
  | .mulw o => Sys2Proof.Machine.execMulw o s
  | .div o => Sys2Proof.Machine.execDiv o s
  | .divz o => Sys2Proof.Machine.execDivz o s
  | .rem o => Sys2Proof.Machine.execRem o s
  | .remz o => Sys2Proof.Machine.execRemz o s
  | .clz o => Sys2Proof.Machine.execClz o s
  | .ctz o => Sys2Proof.Machine.execCtz o s
  | .popc o => Sys2Proof.Machine.execPopc o s
  | .brev o => Sys2Proof.Machine.execBrev o s
  | .minz o => Sys2Proof.Machine.execMinz o s
  | .maxz o => Sys2Proof.Machine.execMaxz o s
  | .abs o => Sys2Proof.Machine.execAbs o s
  | .neg o => Sys2Proof.Machine.execNeg o s
  | .min o => Sys2Proof.Machine.execMin o s
  | .max o => Sys2Proof.Machine.execMax o s
  | .bfx o => Sys2Proof.Machine.execBfx o s
  | .bfxs o => Sys2Proof.Machine.execBfxs o s
  | .bfi o => Sys2Proof.Machine.execBfi o s
  | .amoadd o => Sys2Proof.Machine.execAmoadd o s
  | .amoand o => Sys2Proof.Machine.execAmoand o s
  | .amoor o => Sys2Proof.Machine.execAmoor o s
  | .amoxor o => Sys2Proof.Machine.execAmoxor o s
  | .amomin o => Sys2Proof.Machine.execAmomin o s
  | .amomax o => Sys2Proof.Machine.execAmomax o s
  | .amoswp o => Sys2Proof.Machine.execAmoswp o s
  | .amocas o => Sys2Proof.Machine.execAmocas o s
  | .lda o => Sys2Proof.Machine.execLda o s
  | .stl o => Sys2Proof.Machine.execStl o s
  | .fence o => Sys2Proof.Machine.execFence o s
  | .fenceL o => Sys2Proof.Machine.execFenceL o s
  | .fenceS o => Sys2Proof.Machine.execFenceS o s
  | .fenceT o => Sys2Proof.Machine.execFenceT o s
  | .fenceE o => Sys2Proof.Machine.execFenceE o s
  | .bar o => Sys2Proof.Machine.execBar o s
  | .waitev o => Sys2Proof.Machine.execWaitev o s
  | .pollev o => Sys2Proof.Machine.execPollev o s
  | .prio o => Sys2Proof.Machine.execPrio o s
  | .gang2 o => Sys2Proof.Machine.execGang2 o s
  | .gang4 o => Sys2Proof.Machine.execGang4 o s
  | .ungang o => Sys2Proof.Machine.execUngang o s
  | .trap o => Sys2Proof.Machine.execTrap o s
  | .brk o => Sys2Proof.Machine.execBrk o s
  | .mfs o => Sys2Proof.Machine.execMfs o s
  | .mts o => Sys2Proof.Machine.execMts o s
  | .eret o => Sys2Proof.Machine.execEret o s
  | .sleep o => Sys2Proof.Machine.execSleep o s
  | .freqreq o => Sys2Proof.Machine.execFreqreq o s
  | .rdtime o => Sys2Proof.Machine.execRdtime o s
  | .rdcyc o => Sys2Proof.Machine.execRdcyc o s
  | .vadd o => Sys2Proof.Machine.execVadd o s
  | .vsub o => Sys2Proof.Machine.execVsub o s
  | .vmul o => Sys2Proof.Machine.execVmul o s
  | .vdiv o => Sys2Proof.Machine.execVdiv o s
  | .vmin o => Sys2Proof.Machine.execVmin o s
  | .vmax o => Sys2Proof.Machine.execVmax o s
  | .vabs o => Sys2Proof.Machine.execVabs o s
  | .vneg o => Sys2Proof.Machine.execVneg o s
  | .vfma o => Sys2Proof.Machine.execVfma o s
  | .vfms o => Sys2Proof.Machine.execVfms o s
  | .vfnma o => Sys2Proof.Machine.execVfnma o s
  | .vfnms o => Sys2Proof.Machine.execVfnms o s
  | .vexp2 o => Sys2Proof.Machine.execVexp2 o s
  | .vlog2 o => Sys2Proof.Machine.execVlog2 o s
  | .vrcp o => Sys2Proof.Machine.execVrcp o s
  | .vrsqrt o => Sys2Proof.Machine.execVrsqrt o s
  | .vsin o => Sys2Proof.Machine.execVsin o s
  | .vcos o => Sys2Proof.Machine.execVcos o s
  | .vtanh o => Sys2Proof.Machine.execVtanh o s
  | .vsqrt o => Sys2Proof.Machine.execVsqrt o s
  | .vand o => Sys2Proof.Machine.execVand o s
  | .vor o => Sys2Proof.Machine.execVor o s
  | .vxor o => Sys2Proof.Machine.execVxor o s
  | .vshl o => Sys2Proof.Machine.execVshl o s
  | .vshr o => Sys2Proof.Machine.execVshr o s
  | .vsar o => Sys2Proof.Machine.execVsar o s
  | .vadds o => Sys2Proof.Machine.execVadds o s
  | .vsubs o => Sys2Proof.Machine.execVsubs o s
  | .vcmpeq o => Sys2Proof.Machine.execVcmpeq o s
  | .vcmplt o => Sys2Proof.Machine.execVcmplt o s
  | .vcmple o => Sys2Proof.Machine.execVcmple o s
  | .vcmpne o => Sys2Proof.Machine.execVcmpne o s
  | .vmov o => Sys2Proof.Machine.execVmov o s
  | .vsel o => Sys2Proof.Machine.execVsel o s
  | .vbcast o => Sys2Proof.Machine.execVbcast o s
  | .vextr o => Sys2Proof.Machine.execVextr o s
  | .vcvt o => Sys2Proof.Machine.execVcvt o s
  | .vredsum o => Sys2Proof.Machine.execVredsum o s
  | .vredmin o => Sys2Proof.Machine.execVredmin o s
  | .vredmax o => Sys2Proof.Machine.execVredmax o s
  | .vscan o => Sys2Proof.Machine.execVscan o s
  | .vperm o => Sys2Proof.Machine.execVperm o s
  | .vcompress o => Sys2Proof.Machine.execVcompress o s
  | .vexpand o => Sys2Proof.Machine.execVexpand o s
  | .vrot o => Sys2Proof.Machine.execVrot o s
  | .vld o => Sys2Proof.Machine.execVld o s
  | .vlds o => Sys2Proof.Machine.execVlds o s
  | .vldg o => Sys2Proof.Machine.execVldg o s
  | .vst o => Sys2Proof.Machine.execVst o s
  | .vsts o => Sys2Proof.Machine.execVsts o s
  | .vstg o => Sys2Proof.Machine.execVstg o s
  | .vldf o => Sys2Proof.Machine.execVldf o s
  | .vstf o => Sys2Proof.Machine.execVstf o s
  | .kand o => Sys2Proof.Machine.execKand o s
  | .kor o => Sys2Proof.Machine.execKor o s
  | .kxor o => Sys2Proof.Machine.execKxor o s
  | .knot o => Sys2Proof.Machine.execKnot o s
  | .kpopc o => Sys2Proof.Machine.execKpopc o s
  | .kfirst o => Sys2Proof.Machine.execKfirst o s
  | .kset o => Sys2Proof.Machine.execKset o s
  | .kmov o => Sys2Proof.Machine.execKmov o s
  | .visect o => Sys2Proof.Machine.execVisect o s
  | .vunion o => Sys2Proof.Machine.execVunion o s
  | .vspaclr o => Sys2Proof.Machine.execVspaclr o s
  | .vspaacc o => Sys2Proof.Machine.execVspaacc o s
  | .vspaget o => Sys2Proof.Machine.execVspaget o s
  | .vspadrain o => Sys2Proof.Machine.execVspadrain o s
  | .vpop o => Sys2Proof.Machine.execVpop o s
  | .vpush o => Sys2Proof.Machine.execVpush o s
  | .vdot4 o => Sys2Proof.Machine.execVdot4 o s
  | .vdot2 o => Sys2Proof.Machine.execVdot2 o s
  | .vcdot o => Sys2Proof.Machine.execVcdot o s
  | .vcdot4 o => Sys2Proof.Machine.execVcdot4 o s
  | .mma o => Sys2Proof.Machine.execMma o s
  | .mmaZ o => Sys2Proof.Machine.execMmaZ o s
  | .mmac o => Sys2Proof.Machine.execMmac o s
  | .mmacZ o => Sys2Proof.Machine.execMmacZ o s
  | .mwload o => Sys2Proof.Machine.execMwload o s
  | .mclr o => Sys2Proof.Machine.execMclr o s
  | .mdrain o => Sys2Proof.Machine.execMdrain o s
  | .mwait o => Sys2Proof.Machine.execMwait o s
  | .mstat o => Sys2Proof.Machine.execMstat o s
  | .mwrr o => Sys2Proof.Machine.execMwrr o s
  | .cpset o => Sys2Proof.Machine.execCpset o s
  | .cpgo o => Sys2Proof.Machine.execCpgo o s
  | .cpdone o => Sys2Proof.Machine.execCpdone o s
  | .cpwait o => Sys2Proof.Machine.execCpwait o s
  | .sbind o => Sys2Proof.Machine.execSbind o s
  | .sbindw o => Sys2Proof.Machine.execSbindw o s
  | .sbindv o => Sys2Proof.Machine.execSbindv o s
  | .sbindvw o => Sys2Proof.Machine.execSbindvw o s
  | .sunbind o => Sys2Proof.Machine.execSunbind o s
  | .sstat o => Sys2Proof.Machine.execSstat o s
  | .bstop o => Sys2Proof.Machine.execBstop o s
  | .sskip o => Sys2Proof.Machine.execSskip o s
  | .wlaunch o => Sys2Proof.Machine.execWlaunch o s
  | .wnext o => Sys2Proof.Machine.execWnext o s
  | .wsteal o => Sys2Proof.Machine.execWsteal o s
  | .wstat o => Sys2Proof.Machine.execWstat o s
  | .wjoin o => Sys2Proof.Machine.execWjoin o s
  | .wdone o => Sys2Proof.Machine.execWdone o s
  | .qarrive o => Sys2Proof.Machine.execQarrive o s
  | .qwait o => Sys2Proof.Machine.execQwait o s
  | .qstat o => Sys2Proof.Machine.execQstat o s
  | .qcfg o => Sys2Proof.Machine.execQcfg o s
  | .sendv o => Sys2Proof.Machine.execSendv o s
  | .sendt o => Sys2Proof.Machine.execSendt o s
  | .sendg o => Sys2Proof.Machine.execSendg o s
  | .sendc o => Sys2Proof.Machine.execSendc o s
  | .recvv o => Sys2Proof.Machine.execRecvv o s
  | .recvt o => Sys2Proof.Machine.execRecvt o s
  | .recvg o => Sys2Proof.Machine.execRecvg o s
  | .peek o => Sys2Proof.Machine.execPeek o s
  | .fwdc o => Sys2Proof.Machine.execFwdc o s
  | .proof o => Sys2Proof.Machine.execProof o s
  | .mail o => Sys2Proof.Machine.execMail o s
  | .mreply o => Sys2Proof.Machine.execMreply o s
  | .mwaitf o => Sys2Proof.Machine.execMwaitf o s
  | .dreq o => Sys2Proof.Machine.execDreq o s
  | .xlate o => Sys2Proof.Machine.execXlate o s
  | .bindh o => Sys2Proof.Machine.execBindh o s
  | .bindhMail o => Sys2Proof.Machine.execBindhMail o s
  | .bindhMlimit o => Sys2Proof.Machine.execBindhMlimit o s
  | .pstat o => Sys2Proof.Machine.execPstat o s
  | .pstatOutput o => Sys2Proof.Machine.execPstatOutput o s
  | .pstatMail o => Sys2Proof.Machine.execPstatMail o s
  | .ctxsave o => Sys2Proof.Machine.execCtxsave o s
  | .ctxload o => Sys2Proof.Machine.execCtxload o s
  | .engrd o => Sys2Proof.Machine.execEngrd o s
  | .engwr o => Sys2Proof.Machine.execEngwr o s
  | .qload o => Sys2Proof.Machine.execQload o s
  | .qsave o => Sys2Proof.Machine.execQsave o s
  | .qmap o => Sys2Proof.Machine.execQmap o s
  | .qunmap o => Sys2Proof.Machine.execQunmap o s
  | .fmload o => Sys2Proof.Machine.execFmload o s
  | .fmswap o => Sys2Proof.Machine.execFmswap o s
  | .fmdrain o => Sys2Proof.Machine.execFmdrain o s
  | .fmclear o => Sys2Proof.Machine.execFmclear o s
  | .tagbind o => Sys2Proof.Machine.execTagbind o s
  | .migrate o => Sys2Proof.Machine.execMigrate o s
  | .quoinrd o => Sys2Proof.Machine.execQuoinrd o s
  | .kload o => Sys2Proof.Machine.execKload o s
  | .clkplan o => Sys2Proof.Machine.execClkplan o s
  | .sleepWake t c x => Sys2Proof.Machine.execSleepWake t c x s
  | .resultReturn t c x n => Sys2Proof.Machine.execResultReturn t c x n s
  | .forcedSwitch t c => Sys2Proof.Machine.execForcedSwitch t c s
  | .contextAged t c x => Sys2Proof.Machine.execContextAged t c x s
  | .trapEntry t c x => Sys2Proof.Machine.execTrapEntry t c x s
  | .takeNotice t c => Sys2Proof.Machine.execTakeNotice t c s
  | .handlerBudget t c x => Sys2Proof.Machine.execHandlerBudget t c x s
  | .timer t c => Sys2Proof.Machine.execTimer t c s
  | .matrixStep t => Sys2Proof.Machine.execMatrixStep t s
  | .mwloadToken t => Sys2Proof.Machine.execMwloadToken t s
  | .matrixCommandComplete t c => Sys2Proof.Machine.execMatrixCommandComplete t c s
  | .matrixOperand t c => Sys2Proof.Machine.execMatrixOperand t c s
  | .matrixDataError t c => Sys2Proof.Machine.execMatrixDataError t c s
  | .copyRound t h => Sys2Proof.Machine.execCopyRound t h s
  | .copyRoundVoid t h => Sys2Proof.Machine.execCopyRoundVoid t h s
  | .copyDataError t h => Sys2Proof.Machine.execCopyDataError t h s
  | .copyTransferComplete t h => Sys2Proof.Machine.execCopyTransferComplete t h s
  | .streamElementRead t c u => Sys2Proof.Machine.execStreamElementRead t c u s
  | .streamRoundCommit t c u => Sys2Proof.Machine.execStreamRoundCommit t c u s
  | .streamFault t c u => Sys2Proof.Machine.execStreamFault t c u s
  | .walkerDispatch t c => Sys2Proof.Machine.execWalkerDispatch t c s
  | .walkerArbiterStep t c => Sys2Proof.Machine.execWalkerArbiterStep t c s
  | .stealAnswerArrival n => Sys2Proof.Machine.execStealAnswerArrival n s
  | .walkNotice n => Sys2Proof.Machine.execWalkNotice n s
  | .autoStealRequest t c => Sys2Proof.Machine.execAutoStealRequest t c s
  | .retirementReport n => Sys2Proof.Machine.execRetirementReport n s
  | .quireTurn t q => Sys2Proof.Machine.execQuireTurn t q s
  | .vectorUnitArrival t q => Sys2Proof.Machine.execVectorUnitArrival t q s
  | .xlateShootdown t c x => Sys2Proof.Machine.execXlateShootdown t c x s
  | .tokenArrival n => Sys2Proof.Machine.execTokenArrival n s
  | .firingStart t => Sys2Proof.Machine.execFiringStart t s
  | .colophonStep t => Sys2Proof.Machine.execColophonStep t s
  | .proofStep t => Sys2Proof.Machine.execProofStep t s
  | .slotReturn n => Sys2Proof.Machine.execSlotReturn n s
  | .mailArrival n => Sys2Proof.Machine.execMailArrival n s
  | .mailAnswer n => Sys2Proof.Machine.execMailAnswer n s
  | .contextFreeNotice t => Sys2Proof.Machine.execContextFreeNotice t s
  | .reservationLapse t k => Sys2Proof.Machine.execReservationLapse t k s
  | .mailWithdrawal n => Sys2Proof.Machine.execMailWithdrawal n s
  | .noticeArrival n => Sys2Proof.Machine.execNoticeArrival n s
  | .dramRead a k => Sys2Proof.Machine.execDramRead a k s
  | .dramWrite a k => Sys2Proof.Machine.execDramWrite a k s
  | .dramAmo a k => Sys2Proof.Machine.execDramAmo a k s
  | .dramGather a k => Sys2Proof.Machine.execDramGather a k s
  | .dramFlush a k => Sys2Proof.Machine.execDramFlush a k s
  | .dramReply n => Sys2Proof.Machine.execDramReply n s
  | .channelSpareSwap a h => Sys2Proof.Machine.execChannelSpareSwap a h s
  | .dupInvalidation n => Sys2Proof.Machine.execDupInvalidation n s
  | .dupAck n => Sys2Proof.Machine.execDupAck n s
  | .dupCollapse a k => Sys2Proof.Machine.execDupCollapse a k s
  | .translationWalk t va write => Sys2Proof.Machine.execTranslationWalk t va write s
  | .shootdownAck n => Sys2Proof.Machine.execShootdownAck n s
  | .lowMark t => Sys2Proof.Machine.execLowMark t s
  | .rebalancerWindow chase window => Sys2Proof.Machine.execRebalancerWindow chase window s
  | .migrationFreeze chase => Sys2Proof.Machine.execMigrationFreeze chase s
  | .migrationQuiesced chase => Sys2Proof.Machine.execMigrationQuiesced chase s
  | .migrationRebind chase => Sys2Proof.Machine.execMigrationRebind chase s
  | .stubForward n => Sys2Proof.Machine.execStubForward n s
  | .seamArrival n => Sys2Proof.Machine.execSeamArrival n s
  | .seamAck n => Sys2Proof.Machine.execSeamAck n s
  | .stubClose chase => Sys2Proof.Machine.execStubClose chase s
  | .engHold t engine unit => Sys2Proof.Machine.execEngHold t engine unit s
  | .engRelease t engine unit => Sys2Proof.Machine.execEngRelease t engine unit s
  | .engAbandon t engine unit => Sys2Proof.Machine.execEngAbandon t engine unit s
  | .engCancel t engine unit => Sys2Proof.Machine.execEngCancel t engine unit s
  | .engResume t engine unit gen => Sys2Proof.Machine.execEngResume t engine unit gen s
  | .probeStep t => Sys2Proof.Machine.execProbeStep t s
  | .kick galley tail => Sys2Proof.Machine.execKick galley tail s
  | .kickPending zone => Sys2Proof.Machine.execKickPending zone s
  | .galleyAgeTick => Sys2Proof.Machine.execGalleyAgeTick s
  | .packetAccept slot => Sys2Proof.Machine.execPacketAccept slot s
  | .acceptFault slot => Sys2Proof.Machine.execAcceptFault slot s
  | .galleyNop galley packet => Sys2Proof.Machine.execGalleyNop galley packet s
  | .impose galley packet => Sys2Proof.Machine.execImpose galley packet s
  | .input galley packet => Sys2Proof.Machine.execInput galley packet s
  | .colophon galley packet => Sys2Proof.Machine.execColophon galley packet s
  | .swap galley packet => Sys2Proof.Machine.execSwap galley packet s
  | .shrink galley packet => Sys2Proof.Machine.execShrink galley packet s
  | .release galley packet => Sys2Proof.Machine.execRelease galley packet s
  | .barrier galley packet => Sys2Proof.Machine.execBarrier galley packet s
  | .cutComplete chase => Sys2Proof.Machine.execCutComplete chase s
  | .rollback chase => Sys2Proof.Machine.execRollback chase s
  | .loadShareTick t => Sys2Proof.Machine.execLoadShareTick t s
  | .watchdog t dir => Sys2Proof.Machine.execWatchdog t dir s
  | .stepChange t => Sys2Proof.Machine.execStepChange t s
  | .alarmThrottle alarm => Sys2Proof.Machine.execAlarmThrottle alarm s
  | .throttleRelease => Sys2Proof.Machine.execThrottleRelease s
  | .currentClamp t current => Sys2Proof.Machine.execCurrentClamp t current s
  | .thermalTrip celsius => Sys2Proof.Machine.execThermalTrip celsius s
  | .ballast t => Sys2Proof.Machine.execBallast t s
  | .coreClockGate t c => Sys2Proof.Machine.execCoreClockGate t c s
  | .tileSleep t => Sys2Proof.Machine.execTileSleep t s
  | .tileWake t => Sys2Proof.Machine.execTileWake t s
  | .stewardHeartbeat => Sys2Proof.Machine.execStewardHeartbeat s
  | .stewardHung => Sys2Proof.Machine.execStewardHung s
  | .clockHoldover t => Sys2Proof.Machine.execClockHoldover t s
  | .timingToken n => Sys2Proof.Machine.execTimingToken n s
  | .timePortLoss => Sys2Proof.Machine.execTimePortLoss s
  | .powerUpBoot tests => Sys2Proof.Machine.execPowerUpBoot tests s
  | .romRecovery port image => Sys2Proof.Machine.execRomRecovery port image s
  | .bileelWrite port frame => Sys2Proof.Machine.execBileelWrite port frame s
  | .bileelRead port frame => Sys2Proof.Machine.execBileelRead port frame s
  | .bileelKick port frame => Sys2Proof.Machine.execBileelKick port frame s
  | .bileelAck port frame => Sys2Proof.Machine.execBileelAck port frame s
  | .completion galley status seq index => Sys2Proof.Machine.execCompletion galley status seq index s
  | .identity port frame => Sys2Proof.Machine.execIdentity port frame s
  | .quote port frame => Sys2Proof.Machine.execQuote port frame s
  | .spareLog port frame => Sys2Proof.Machine.execSpareLog port frame s
  | .measureLog port frame => Sys2Proof.Machine.execMeasureLog port frame s
  | .diag port frame => Sys2Proof.Machine.execDiag port frame s
  | .session port frame => Sys2Proof.Machine.execSession port frame s
  | .image port frame => Sys2Proof.Machine.execImage port frame s
  | .flashWrite port frame => Sys2Proof.Machine.execFlashWrite port frame s
  | .svnCommit port frame => Sys2Proof.Machine.execSvnCommit port frame s
  | .provision port frame => Sys2Proof.Machine.execProvision port frame s
  | .deploy port frame => Sys2Proof.Machine.execDeploy port frame s
  | .return_ port frame => Sys2Proof.Machine.execReturn port frame s
  | .standby port frame => Sys2Proof.Machine.execStandby port frame s
  | .loadSteward port frame => Sys2Proof.Machine.execLoadSteward port frame s
  | .debugRequest port frame => Sys2Proof.Machine.execDebugRequest port frame s
  | .debugResponse port frame => Sys2Proof.Machine.execDebugResponse port frame s
  | .timePort port frame => Sys2Proof.Machine.execTimePort port frame s
  | .ingestFrame port frame => Sys2Proof.Machine.execIngestFrame port frame s
  | .pauseResume port ring => Sys2Proof.Machine.execPauseResume port ring s
  | .ingestRingFault port ring => Sys2Proof.Machine.execIngestRingFault port ring s
  | .pfcReceived port pause quanta => Sys2Proof.Machine.execPfcReceived port pause quanta s
  | .flitReceive link flit => Sys2Proof.Machine.execFlitReceive link flit s
  | .nakRetransmit link first => Sys2Proof.Machine.execNakRetransmit link first s
  | .laneFailure link lane => Sys2Proof.Machine.execLaneFailure link lane s
  | .testLogicReset => Sys2Proof.Machine.execTestLogicReset s
  | .extest cells => Sys2Proof.Machine.execExtest cells s
  | .idcode => Sys2Proof.Machine.execIdcode s
  | .samplePreload cells => Sys2Proof.Machine.execSamplePreload cells s
  | .dbgreq level => Sys2Proof.Machine.execDbgreq level s
  | .dbgresp key sig => Sys2Proof.Machine.execDbgresp key sig s
  | .trace t item word => Sys2Proof.Machine.execTrace t item word s
  | .halt t c op => Sys2Proof.Machine.execHalt t c op s
  | .bypass bit => Sys2Proof.Machine.execBypass bit s
  | .tileLost t => Sys2Proof.Machine.execTileLost t s
  | .dramActorLost a => Sys2Proof.Machine.execDramActorLost a s
  | .softError t space c unit bad => Sys2Proof.Machine.execSoftError t space c unit bad s
  | .tokenPoisoned token corrected => Sys2Proof.Machine.execTokenPoisoned token corrected s
  | .alarmClear reason => Sys2Proof.Machine.execAlarmClear reason s
  | .powerLoss written => Sys2Proof.Machine.execPowerLoss written s
  | .zoneCapSet zone cap clamp threshold => Sys2Proof.Machine.execZoneCapSet zone cap clamp threshold s
  | .heartbeatArrival n => Sys2Proof.Machine.execHeartbeatArrival n s
  | .syncMessage port time => Sys2Proof.Machine.execSyncMessage port time s
  | .edgeTimeMasterTick => Sys2Proof.Machine.execEdgeTimeMasterTick s
  | .portLinkUp port => Sys2Proof.Machine.execPortLinkUp port s
  | .droppedFrame port length => Sys2Proof.Machine.execDroppedFrame port length s
  | .pauseRenew port ring => Sys2Proof.Machine.execPauseRenew port ring s
  | .foldReservationLapse chase => Sys2Proof.Machine.execFoldReservationLapse chase s
  | .hostBackingReply n data => Sys2Proof.Machine.execHostBackingReply n data s
  | .internalError t c reason => Sys2Proof.Machine.execInternalError t c reason s
  | .ktimerWrite t c x value => Sys2Proof.Machine.execKtimerWrite t c x value s
  | .npendClear t c x value => Sys2Proof.Machine.execNpendClear t c x value s
  | .freqLockWrite t c x value => Sys2Proof.Machine.execFreqLockWrite t c x value s
  | .fmodeWrite t c x value => Sys2Proof.Machine.execFmodeWrite t c x value s

end Sys2Proof.Machine
end

