-- ==== Sys2Proof/Machine/Step.lean ====
section
/-! DEFINITION. The step of the module, and the state in which its next step runs a given instruction. -/

namespace Sys2Proof.Machine

/-- A turn of a core: the instruction that issues is carried out (R31). -/
def State.cycle (s : State) (t c : Nat) : Host.Outcome State Fault Refusal :=
  match s.issue t c with
  | .entered s' => .next s'
  | .run i s' => exec i s'

/-- The state with the next item of the schedule taken off. -/
def State.popDue (s : State) : State := { s with model := { s.model with agenda := s.model.agenda.tail } }

/-- A step (assumption 5): the next item of the schedule; where it is empty, what the model's own order lets happen. -/
def step (s : State) : Host.Outcome State Fault Refusal :=
  match s.model.agenda with
  | .issue t c :: _ => s.popDue.cycle t c
  | .pass ns :: _ => .next (s.popDue.passTime ns)
  | .event i :: _ => exec i s.popDue
  | [] =>
    match s.openTurn.choose with
    | .core t c => s.openTurn.cycle t c
    | .moved s' => .next s'

/-- The state in which the next step fetches the words of an instruction and runs it (assumption 8). -/
def State.withFetchWord (s : State) (nbits w : Nat) : State := s.placeWords (tableWords nbits w)

end Sys2Proof.Machine
end

