-- ==== Sys2Proof/Safety.lean ====
section
/-! DEFINITION. The words in which statements about the machine are made: safe runs, when an instruction may be carried out, the
state in which it has completed, trapped or waits, and what a step leaves alone. -/

namespace Sys2Proof.Machine

/-- The machine goes on from a state. -/
def safe (s : State) : Prop := ∃ t, step s = .next t

/-! ## Carrying out an instruction -/

/-- Nothing keeps the context under way from an instruction that names the registers `use`: it is in no gang (R172), none of them is in
flight (R137), and none of them is a stream register that traps or waits (R133). -/
abbrev State.mayRun (s : State) (use : Use) : Prop :=
  (s.tile s.cur.tile).gangOf s.cur.core s.cur.ctx = none ∧ s.me.blocked use = false ∧ s.gate s.cur use = none

/-- The instruction of context `u` has completed and fallen through: its effect left `s1`, its source streams have given an element each
(R133), its words count toward the forced switch (R41), the pc and the loop stack have advanced (R154), and a marker has ended the
switch group (R41). -/
def State.completed (s1 : State) (u : Cur) (o : Opnd) (use : Use) : State :=
  ((s1.consume u use).modCtx u fun k => (k.advance o.len).count o.len).atMarker u o.mark

/-- The instruction of context `u` has completed with a taken transfer (R154). -/
def State.jumped (s1 : State) (u : Cur) (o : Opnd) (use : Use) (target : Word) : State :=
  ((s1.consume u use).modCtx u fun k => (k.transfer target).count o.len).atMarker u o.mark

/-- The outcome of an instruction that completes with an effect. -/
def completes (o : Opnd) (use : Use) (s s1 : State) : Host.Outcome State Fault Refusal := .next (s1.completed s.cur o use)

/-- The outcome of an instruction that completes with a taken transfer. -/
def jumps (o : Opnd) (use : Use) (s s1 : State) (target : Word) : Host.Outcome State Fault Refusal :=
  .next (s1.jumped s.cur o use target)

/-- The outcome of an instruction that traps: none of its effect stands (R9). -/
def traps (o : Opnd) (s : State) (cause : Cause) (info : Word) : Host.Outcome State Fault Refusal :=
  .next (s.raise s.cur cause info o.len)

/-- The outcome of an instruction whose context waits (R134). -/
def waits (s s1 : State) (w : Wait) : Host.Outcome State Fault Refusal := .next (s1.holdOn s.cur w)

/-- A step of the module ends in a next state for which `p` holds. -/
def leadsTo (i : Instr) (s : State) (p : State → Prop) : Prop := ∃ t, exec i s = .next t ∧ p t

/-! ## What a step leaves alone -/

/-- Every byte of every memory reads in `t` as it reads in `s`. -/
def keepsMemory (s t : State) : Prop :=
  (∀ y c sp a, (t.localMem y c sp).bytes.read a = (s.localMem y c sp).bytes.read a) ∧ ∀ a, t.dram.bytes.read a = s.dram.bytes.read a

/-- Every general, vector and mask register of every context reads as before, but for those of context `u` in `ds`. -/
def keepsRegisters (s t : State) (u : Cur) (ds : List Dest) : Prop :=
  ∀ v n, (v ≠ u ∨ .g n ∉ ds → (t.ctx v).g n = (s.ctx v).g n) ∧ (v ≠ u ∨ .v n ∉ ds → (t.ctx v).v n = (s.ctx v).v n) ∧
    (v ≠ u ∨ .k n ∉ ds → (t.ctx v).k n = (s.ctx v).k n)

/-- Every trap register, flag and system register of every context and of every core holds what it held. -/
def keepsSpecial (s t : State) : Prop :=
  (∀ v, (t.ctx v).trap = (s.ctx v).trap ∧ (t.ctx v).sys = (s.ctx v).sys) ∧
  ∀ y c, (t.core y c).tvec = (s.core y c).tvec ∧ (t.core y c).ktimer = (s.core y c).ktimer ∧
    (t.core y c).npend = (s.core y c).npend ∧ (t.core y c).ninfo = (s.core y c).ninfo ∧ (t.core y c).wdesc = (s.core y c).wdesc ∧
    (t.core y c).cyc = (s.core y c).cyc ∧ (t.core y c).freqReq = (s.core y c).freqReq

/-- The engines of every tile and core stand as before, the stream units apart. -/
def keepsEngines (s t : State) : Prop :=
  (∀ y, (t.tile y).eng = (s.tile y).eng ∧ (t.tile y).port = (s.tile y).port ∧ (t.tile y).clk = (s.tile y).clk ∧
    (t.tile y).place = (s.tile y).place) ∧
  ∀ y c, (t.core y c).evq = (s.core y c).evq ∧ (t.core y c).walker = (s.core y c).walker ∧ (t.core y c).spa = (s.core y c).spa ∧
    (t.core y c).mq = (s.core y c).mq

/-- Everything outside the tiles stands as before, D and its actors among it. -/
def keepsOutside (s t : State) : Prop :=
  t.dram = s.dram ∧ t.actors = s.actors ∧ t.tags = s.tags ∧ t.chases = s.chases ∧ t.rebals = s.rebals ∧ t.galleys = s.galleys ∧
    t.plat = s.plat ∧ t.net = s.net ∧ t.now = s.now

/-- Nothing but the registers `ds` of context `u`, its progress and the issue slot has changed. -/
def onlyRegisters (s t : State) (u : Cur) (ds : List Dest) : Prop :=
  keepsMemory s t ∧ keepsRegisters s t u ds ∧ keepsSpecial s t ∧ keepsEngines s t ∧ keepsOutside s t

/-! ## Vector results -/

/-- Lane `i` of a number that holds lanes of `w` bits (R265). -/
def lane (w v i : Nat) : Nat := v / 2 ^ (w * i) % 2 ^ w

/-- Lane `i` of `w` bits is active under the mask that PX.M names; with none every lane is (R266). -/
def State.lives (s : State) (o : Opnd) (w i : Nat) : Bool := o.mf 5 3 == 0 || (s.me.k (o.mf 5 3)).getLsbD (i * w / 8)

/-- The flags `fl` are those that some active lane raises. -/
def raisedBy (s : State) (o : Opnd) (w : Nat) (f : Nat → Nat × Flagset) (fl : Flagset) : Prop :=
  ∀ b, b < 7 → (fl.getLsbD b = true ↔ ∃ i, i < 1024 / w ∧ s.lives o w i = true ∧ (f i).2.getLsbD b = true)

/-- The instruction completes with a long-latency result of vector register d (R136): each active lane is what `f` gives, each other lane
keeps what it holds, or is zero in a token of a stream (R266, R269); the flags of the active lanes are set in `%fflags`. -/
def givesLanes (i : Instr) (o : Opnd) (use : Use) (s : State) (w : Nat) (f : Nat → Nat × Flagset) : Prop :=
  ∃ (v : Nat) (fl : Flagset),
    exec i s = completes o use s ((s.addFlags fl).lv o.d.toNat (.vec (BitVec.ofNat 1024 v)) o.len) ∧ v < 2 ^ 1024 ∧ raisedBy s o w f fl ∧
    ∀ n, n < 1024 / w → lane w v n =
      if s.lives o w n then (f n).1 % 2 ^ w
      else if (s.myCore.binding s.cur.ctx true o.d.toNat).isSome then 0 else lane w (s.me.v o.d.toNat).toNat n

/-- The instruction completes with a result of mask register d: all bits of the active lanes for which `hit` holds (R266, R275). -/
def givesMask (i : Instr) (o : Opnd) (use : Use) (s : State) (w : Nat) (hit : Nat → Bool) (fl : Flagset) : Prop :=
  ∃ v : KWord, exec i s = completes o use s ((s.addFlags fl).launch (.k o.d.toNat) (.mask v) o.len) ∧
    ∀ b, b < 128 → v.getLsbD b = (s.lives o w (b / (w / 8)) && hit (b / (w / 8)))

/-- Nothing but the registers `ds` and the flags of context `u`, its progress, its results in flight, the issue slot and stream units has
changed, and no flag has been cleared (R88). -/
def onlyFlags (s t : State) (u : Cur) (ds : List Dest) : Prop :=
  keepsMemory s t ∧ keepsRegisters s t u ds ∧ keepsEngines s t ∧ keepsOutside s t ∧
  (∀ v, (t.ctx v).trap = (s.ctx v).trap ∧ (v ≠ u → (t.ctx v).sys = (s.ctx v).sys)) ∧
  (t.ctx u).sys = { (s.ctx u).sys with fflags := (t.ctx u).sys.fflags } ∧
  (∀ b, (s.ctx u).sys.fflags.getLsbD b = true → (t.ctx u).sys.fflags.getLsbD b = true) ∧
  ∀ y c, (t.core y c).tvec = (s.core y c).tvec ∧ (t.core y c).ktimer = (s.core y c).ktimer ∧ (t.core y c).npend = (s.core y c).npend ∧
    (t.core y c).wdesc = (s.core y c).wdesc ∧ (t.core y c).cyc = (s.core y c).cyc

/-! ## Canonical memories -/

/-- Every memory of the module has its canonical form: addresses rising, no cell equal to what an unlisted address reads as. -/
def State.memoriesCanonical (s : State) : Prop :=
  (∀ y c sp, (s.localMem y c sp).bytes.wf = true) ∧ s.dram.bytes.wf = true

end Sys2Proof.Machine
end

