-- ==== Sys2Proof/Certificates/Slice0/Obligations.lean ====
section
/-! DEFINITION. The statements that are to be proved about the machine. -/

open Sys2Proof Sys2Proof.Machine


/-! ## Scalar instructions -/

/-- R141 to R144, R157 to R159: What a two-operand instruction writes to d, from x and y: d and a without PX.R, a and b with it. A source that
is a bound stream register is its head element, and a destination that is one is appended to (`State.rg`, `State.wg`; see
StreamRegistersPopAndPush). What an instruction with an immediate writes to d. Its source is d, or PX.R[5:0] where a PX.R stands. Moves,
extensions, LEA, the counts, ABS and NEG. The field instructions. The position and the length come from the two PX.I words, or from register
b. -/
def Obligations.ArithmeticInstructionsGiveTheirResults : Prop :=
  (∀ (o : Opnd) (s : State), s.mayRun (useForm o) →
      let x := s.rg (if o.r then o.a.toNat else o.d.toNat)
      let y := s.rg (if o.r then o.b.toNat else o.a.toNat)
      let gives (i : Instr) (v : Word) : Prop := exec i s = completes o (useForm o) s (s.wg o.d.toNat v)
      gives (.add o) (BitVec.ofNat 64 (x.toNat + y.toNat)) ∧
      gives (.sub o) (BitVec.ofInt 64 (x.toInt - y.toInt)) ∧
      gives (.and o) (x &&& y) ∧ gives (.or o) (x ||| y) ∧ gives (.xor o) (x ^^^ y) ∧
      gives (.andn o) (x &&& ~~~y) ∧ gives (.orn o) (x ||| ~~~y) ∧
      gives (.shl o) (BitVec.ofNat 64 (x.toNat * 2 ^ (y.toNat % 64))) ∧
      gives (.shr o) (BitVec.ofNat 64 (x.toNat / 2 ^ (y.toNat % 64))) ∧
      gives (.sar o) (BitVec.ofInt 64 (x.toInt / 2 ^ (y.toNat % 64))) ∧
      gives (.slt o) (if x.toInt < y.toInt then 1 else 0) ∧
      gives (.sltz o) (if x.toNat < y.toNat then 1 else 0) ∧
      gives (.minz o) (BitVec.ofNat 64 (min x.toNat y.toNat)) ∧ gives (.maxz o) (BitVec.ofNat 64 (max x.toNat y.toNat)) ∧
      gives (.min o) (BitVec.ofInt 64 (min x.toInt y.toInt)) ∧ gives (.max o) (BitVec.ofInt 64 (max x.toInt y.toInt))) ∧
  (∀ (o : Opnd) (s : State),
      let src := if o.r then o.b.toNat else o.d.toNat
      let x := s.rg src
      let use := Use.g [src] [o.d.toNat]
      let imm := BitVec.ofInt 64 o.imm
      let gives (i : Instr) (v : Word) : Prop := s.mayRun use → exec i s = completes o use s (s.wg o.d.toNat v)
      gives (.addi o) (BitVec.ofInt 64 (x.toInt + o.imm)) ∧ gives (.andi o) (x &&& imm) ∧ gives (.xori o) (x ^^^ imm) ∧
      gives (.shli o) (BitVec.ofNat 64 (x.toNat * 2 ^ o.imm.toNat)) ∧ gives (.shri o) (BitVec.ofNat 64 (x.toNat / 2 ^ o.imm.toNat)) ∧
      gives (.sari o) (BitVec.ofInt 64 (x.toInt / 2 ^ o.imm.toNat)) ∧ gives (.slti o) (if x.toInt < imm.toInt then 1 else 0) ∧
      (s.mayRun (.g [] [o.d.toNat]) → exec (.movi o) s = completes o (.g [] [o.d.toNat]) s (s.wg o.d.toNat imm))) ∧
  (∀ (o : Opnd) (s : State),
      let x := s.rg o.a.toNat
      let y := s.rg o.b.toNat
      let w := 8 * 2 ^ o.mf 1 0
      let gives (i : Instr) (v : Word) : Prop :=
        exec i s = completes o (.g [o.a.toNat] [o.d.toNat]) s (s.wg o.d.toNat v)
      (s.mayRun (.g [o.a.toNat] [o.d.toNat]) →
        gives (.mov o) x ∧ gives (.sext o) ((x.setWidth w).signExtend 64) ∧ gives (.zext o) ((x.setWidth w).setWidth 64) ∧
        (∃ n, gives (.clz o) (BitVec.ofNat 64 n) ∧ n ≤ 64 ∧ x.toNat < 2 ^ (64 - n) ∧ (n < 64 → 2 ^ (63 - n) ≤ x.toNat)) ∧
        (∃ n, gives (.ctz o) (BitVec.ofNat 64 n) ∧ n ≤ 64 ∧ (∀ i, i < n → x.getLsbD i = false) ∧ (n < 64 → x.getLsbD n = true)) ∧
        gives (.popc o) (BitVec.ofNat 64 ((List.range 64).map fun i => (x.getLsbD i).toNat).sum) ∧
        (∃ v, gives (.brev o) v ∧ ∀ i, i < 64 → v.getLsbD (63 - i) = x.getLsbD i) ∧
        gives (.abs o) (BitVec.ofNat 64 x.toInt.natAbs) ∧ gives (.neg o) (BitVec.ofInt 64 (-x.toInt))) ∧
      (s.mayRun (.g [o.d.toNat, o.a.toNat, o.b.toNat] [o.d.toNat]) →
        exec (.sel o) s = completes o (.g [o.d.toNat, o.a.toNat, o.b.toNat] [o.d.toNat]) s
          (s.wg o.d.toNat (if s.rg o.d.toNat = 0 then y else x))) ∧
      (s.mayRun (.g [o.a.toNat, o.b.toNat] [o.d.toNat]) →
        exec (.lea o) s = completes o (.g [o.a.toNat, o.b.toNat] [o.d.toNat]) s
          (s.wg o.d.toNat (BitVec.ofInt 64 ((x.toNat : Int) + y.toNat * 2 ^ o.f.toNat + o.imm))))) ∧
  (∀ (o : Opnd) (s : State),
      let y := (s.rg o.b.toNat).toNat
      let p := if o.ni = 2 then o.imm.toNat % 64 else y % 64
      let l := if o.ni = 2 then o.imm.toNat / 64 % 64 + 1 else y / 256 % 64 + 1
      let w := min (p + l) 64 - p
      let v := (s.rg o.a.toNat).toNat / 2 ^ p % 2 ^ l
      let byReg := if o.ni = 0 then [o.b.toNat] else []
      (s.mayRun (.g ([o.a.toNat] ++ byReg) [o.d.toNat]) →
        exec (.bfx o) s = completes o (.g ([o.a.toNat] ++ byReg) [o.d.toNat]) s (s.wg o.d.toNat (BitVec.ofNat 64 v)) ∧
        exec (.bfxs o) s = completes o (.g ([o.a.toNat] ++ byReg) [o.d.toNat]) s
          (s.wg o.d.toNat (if 2 ^ (w - 1) ≤ v then BitVec.ofInt 64 ((v : Int) - 2 ^ w) else BitVec.ofNat 64 v))) ∧
      (s.mayRun (.g ([o.d.toNat] ++ [o.a.toNat] ++ byReg) [o.d.toNat]) → ∃ r : Word,
        exec (.bfi o) s = completes o (.g ([o.d.toNat] ++ [o.a.toNat] ++ byReg) [o.d.toNat]) s (s.wg o.d.toNat r) ∧
        ∀ i, i < 64 → r.getLsbD i =
          if p ≤ i ∧ i < p + l then (s.rg o.a.toNat).getLsbD (i - p) else (s.rg o.d.toNat).getLsbD i))

/-- R136, R155, R156: A product, a quotient or a remainder is a long-latency result of d; a divisor of zero traps DIVIDE_ZERO and d is
unchanged. -/
def Obligations.ProductsAndQuotientsGoInFlight : Prop :=
  ∀ (o : Opnd) (s : State), s.mayRun (useForm o) →
    let x := s.rg (if o.r then o.a.toNat else o.d.toNat)
    let y := s.rg (if o.r then o.b.toNat else o.a.toNat)
    let gives (i : Instr) (v : Word) : Prop := exec i s = completes o (useForm o) s (s.lg o.d.toNat (.word v) o.len)
    gives (.mul o) (BitVec.ofInt 64 (x.toInt * y.toInt)) ∧
    gives (.mulh o) (BitVec.ofInt 64 (x.toInt * y.toInt / 2 ^ 64)) ∧
    gives (.mulhz o) (BitVec.ofNat 64 (x.toNat * y.toNat / 2 ^ 64)) ∧
    gives (.mulw o) (((x.setWidth 32 * y.setWidth 32 : BitVec 32)).signExtend 64) ∧
    (y ≠ 0 → gives (.div o) (BitVec.ofInt 64 (x.toInt.tdiv y.toInt)) ∧ gives (.rem o) (BitVec.ofInt 64 (x.toInt.tmod y.toInt)) ∧
      gives (.divz o) (BitVec.ofNat 64 (x.toNat / y.toNat)) ∧ gives (.remz o) (BitVec.ofNat 64 (x.toNat % y.toNat))) ∧
    (y = 0 → exec (.div o) s = traps o s .divideZero x ∧ exec (.rem o) s = traps o s .divideZero x ∧
      exec (.divz o) s = traps o s .divideZero x ∧ exec (.remz o) s = traps o s .divideZero x)

/-- R130, R141 to R144, R155 to R159: An arithmetic instruction that completes changes its destination register, or the stream or the result in
flight that stands for it, and nothing else: no other register, no flag, no special register, no byte of memory, no engine. A result that is
appended to a segmented write stream may bring the next segment length to be read, and an error found there strikes the chase (R106, R217). -/
def Obligations.ArithmeticChangesOnlyItsDestination : Prop :=
  ∀ (o : Opnd) (s t : State),
    let frame (l : List Instr) (use : Use) (ds : List Dest) : Prop :=
      s.mayRun use → ∀ i ∈ l, exec i s = .next t → onlyRegisters s { t with chases := s.chases } s.cur ds ∧
        (s.myCore.binding s.cur.ctx false o.d.toNat = none → t.chases = s.chases)
    let byReg := if o.ni = 0 then [o.b.toNat] else []
    frame [.add o, .sub o, .and o, .or o, .xor o, .shl o, .shr o, .sar o, .slt o, .sltz o, .andn o, .orn o, .minz o, .maxz o, .min o, .max o]
      (useForm o) [.g o.d.toNat] ∧
    frame [.addi o, .andi o, .xori o, .shli o, .shri o, .sari o, .slti o] (.g [if o.r then o.b.toNat else o.d.toNat] [o.d.toNat])
      [.g o.d.toNat] ∧
    frame [.movi o] (.g [] [o.d.toNat]) [.g o.d.toNat] ∧
    frame [.mov o, .sext o, .zext o, .clz o, .ctz o, .popc o, .brev o, .abs o, .neg o] (.g [o.a.toNat] [o.d.toNat]) [.g o.d.toNat] ∧
    frame [.sel o] (.g [o.d.toNat, o.a.toNat, o.b.toNat] [o.d.toNat]) [.g o.d.toNat] ∧
    frame [.lea o] (.g [o.a.toNat, o.b.toNat] [o.d.toNat]) [.g o.d.toNat] ∧
    frame [.bfx o, .bfxs o] (.g ([o.a.toNat] ++ byReg) [o.d.toNat]) [.g o.d.toNat] ∧
    frame [.bfi o] (.g ([o.d.toNat] ++ [o.a.toNat] ++ byReg) [o.d.toNat]) [.g o.d.toNat] ∧
    frame [.mul o, .mulh o, .mulhz o, .mulw o] (useForm o) [] ∧
    (s.rg (if o.r then o.b.toNat else o.a.toNat) ≠ 0 → frame [.div o, .divz o, .rem o, .remz o] (useForm o) [])

/-- R130, R133, R269, R287: A register that is no stream register reads as it was last written, and g0 reads as zero and discards what is
written. A register bound to a read stream supplies the head element, and completion takes it. A register bound to a write stream has the
result appended, and itself stays as it is; one of the other direction traps STREAM_DIRECTION, whatever its stream holds. VPOP takes the
head of its read stream: a token goes to d, 0 to b; a stop token traps STREAM_STOP, or with b goes there and leaves d; the terminal token
stays. VPUSH appends one token, its inactive lanes left as they are. A register that is unbound or bound the wrong way traps. -/
def Obligations.StreamRegistersPopAndPush : Prop :=
  (∀ (s : State) (n : Nat) (v : Word),
      (s.rg 0 = 0 ∧ ∀ m, (s.wg 0 v).me.g m = s.me.g m) ∧
      (s.myCore.binding s.cur.ctx false n = none →
        s.rg n = s.me.g n ∧ ∀ m, (s.wg n v).me.g m = if m = n ∧ n ≠ 0 then v else s.me.g m) ∧
      (∀ b e rest, s.myCore.binding s.cur.ctx false n = some b → b.write = false → b.buf = .elem e :: rest →
        s.rg n = BitVec.ofNat 64 e ∧
        (s.consume s.cur (.g [n, n] [])).myCore.stream (unitOf false n) =
          { s.myCore.stream (unitOf false n) with bind := some { b with buf := rest, count := b.count + 1 } }) ∧
      (∀ b, s.myCore.binding s.cur.ctx false n = some b → b.write = true →
        (∀ m, (s.wg n v).me.g m = s.me.g m) ∧
        (s.wg n v).myCore.stream (unitOf false n) =
          { s.myCore.stream (unitOf false n) with bind := some (b.append (s.segLen s.cur.tile b) ⟨v.toNat, none⟩) }) ∧
      (∀ b o, s.myCore.binding s.cur.ctx false n = some b → (s.tile s.cur.tile).gangOf s.cur.core s.cur.ctx = none →
        s.me.blocked (useUnary o) = false → o.a.toNat = n → o.d.toNat = n →
        exec (.mov o) s = traps o s .streamDirection (streamInfo false n (if b.write then 0 else 128)))) ∧
  (∀ (o : Opnd) (s : State),
      let w := laneBits (o.mf 9 6)
      let d := o.d.toNat
      let a := o.a.toNat
      let b := o.b.toNat
      let head := s.myCore.binding s.cur.ctx true a
      let usePop : Use := ⟨[], if b = 0 then [] else [b], [], [], useMask o, []⟩
      let usePush := useV o [a] [d]
      let quiet := s.me.inFlight (.v a) = false ∧ s.me.inFlight (.v d) = false
      let dfree := s.myCore.binding s.cur.ctx true d = none
      let popped : State := s.modMyCore fun k => k.modBinding (unitOf true a) Binding.take
      let reports (s1 : State) (n : Nat) : State := if b = 0 then s1 else s1.lg b (.word (BitVec.ofNat 64 n)) o.len
      let stops (l : Nat) : Prop := exec (.vpop o) s = traps o s .streamStop (BitVec.ofNat 64 (a + 64 + 256 * l))
      (s.mayRun usePop → quiet →
        (head = none → exec (.vpop o) s = traps o s .streamUnbound (BitVec.ofNat 64 (a + 64))) ∧
        (∀ r, head = some r → r.write = true → exec (.vpop o) s = traps o s .streamDirection (BitVec.ofNat 64 (a + 64))) ∧
        (∀ r, head = some r → r.write = false → dfree →
          (r.buf = [] → exec (.vpop o) s = waits s s (.streamRead (unitOf true a))) ∧
          (∀ v rest, r.buf = .elem v :: rest → ∃ x, x < 2 ^ 1024 ∧
            exec (.vpop o) s = completes o usePop s (reports ((popped.addFlags 0).lv d (.vec (BitVec.ofNat 1024 x)) o.len) 0) ∧
            ∀ i, i < 1024 / w → lane w x i = if s.lives o w i then lane w v i else lane w (s.me.v d).toNat i) ∧
          (∀ l rest, r.buf = .stop l :: rest → (b = 0 → stops l) ∧
            (b ≠ 0 → exec (.vpop o) s = completes o usePop s (reports popped (l + 1)))) ∧
          (∀ rest, r.buf = .terminal :: rest → (b = 0 → stops 3) ∧
            (b ≠ 0 → exec (.vpop o) s = completes o usePop s (reports s 4))))) ∧
      (s.mayRun usePush →
        (s.myCore.binding s.cur.ctx true d = none → exec (.vpush o) s = traps o s .streamUnbound (BitVec.ofNat 64 (d + 64))) ∧
        (∀ r, s.myCore.binding s.cur.ctx true d = some r → ∃ keep, keep < 2 ^ 1024 ∧
          (∀ i, i < 1024 / w → lane w keep i = if s.lives o w i then 2 ^ w - 1 else 0) ∧
          (let r' := r.append (s.segLen s.cur.tile r) ⟨(s.rv a).toNat, if keep = 2 ^ 1024 - 1 then none else some keep⟩
          exec (.vpush o) s = completes o usePush s
            ((s.modMyCore fun k => k.modBinding (unitOf true d) fun _ => r').strikeNew s.cur.tile r r')))))

/-! ## Transfers and loops -/

/-- R148 to R151, R154: A transfer goes to its target, the offset counted in words from its first word, or the register's value; an untaken
branch falls through; CALL and CALLR write the address of the next instruction to g1, CALLR after it has read its target. A transfer that
completes changes the link register of CALL and CALLR and nothing else; taken, it leaves the pc at its target and the loop entries whose
range holds the target, in their order. -/
def Obligations.TransfersGoToTheirTargetsAndLinkOnly : Prop :=
  (∀ (o : Opnd) (s : State),
      let d := s.rg o.d.toNat
      let a := s.rg o.a.toNat
      let target := s.me.pc + BitVec.ofInt 64 (2 * o.imm)
      let link := s.me.pc + BitVec.ofNat 64 (2 * o.len)
      let j := o.x.toNat / 4 % 16
      let branches (i : Instr) (use : Use) (c : Prop) : Prop :=
        s.mayRun use → (c → exec i s = jumps o use s s target) ∧ (¬c → exec i s = completes o use s s)
      branches (.br o) .none True ∧
      branches (.bz o) (.g [o.d.toNat] []) (d = 0) ∧ branches (.bnz o) (.g [o.d.toNat] []) (d ≠ 0) ∧
      branches (.bltz o) (.g [o.d.toNat] []) (d.toInt < 0) ∧ branches (.bgez o) (.g [o.d.toNat] []) (0 ≤ d.toInt) ∧
      branches (.beq o) (.g [o.d.toNat, o.a.toNat] []) (d = a) ∧ branches (.bne o) (.g [o.d.toNat, o.a.toNat] []) (d ≠ a) ∧
      branches (.blt o) (.g [o.d.toNat, o.a.toNat] []) (d.toInt < a.toInt) ∧
      branches (.bge o) (.g [o.d.toNat, o.a.toNat] []) (a.toInt ≤ d.toInt) ∧
      (s.mayRun (.g [] [1]) → exec (.call o) s = jumps o (.g [] [1]) s (s.wg 1 link) target) ∧
      (s.mayRun (.g [j] []) → exec (.jr o) s = jumps o (.g [j] []) s s (s.rg j)) ∧
      (s.mayRun (.g [j] [1]) → exec (.callr o) s = jumps o (.g [j] [1]) s (s.wg 1 link) (s.rg j)) ∧
      (s.mayRun (.g [1] []) → exec (.ret o) s = jumps o (.g [1] []) s s (s.rg 1))) ∧
  (∀ (o : Opnd) (s s1 t : State) (use : Use) (target : Word), jumps o use s s1 target = .next t →
      onlyRegisters s1 t s.cur [] ∧ (t.ctx s.cur).pc = target ∧
      (t.ctx s.cur).loops = (s1.ctx s.cur).loops.filter fun e => decide (e.start ≤ target) && decide (target ≤ e.stop))

/-- R41, R151, R153, R154, R170: NOP only advances. Outside a loop the pc goes past it, its words count toward the forced switch, and at a
marker the switch group ends: the context is ready, or parked while it has results in flight. SWITCH advances too, and leaves the context
ready at the back of its rotation. LOOP pushes an entry for its body, a count of zero skips the body, an offset of zero traps
ILLEGAL_ENCODING, and a fifth entry or one that ends after the innermost traps LOOP_NEST. At the end of a body the innermost entry goes
round while its count is above one, and is popped with its last round. -/
def Obligations.NopAdvancesAndLoopsRunTheirBodies : Prop :=
  (∀ (o : Opnd) (s : State), s.mayRun .none → s.me.loops = [] →
      (∃ t, exec (.nop o) s = .next t ∧ onlyRegisters s t s.cur [] ∧ (t.ctx s.cur).pc = s.me.pc + BitVec.ofNat 64 (2 * o.len) ∧
        (t.ctx s.cur).flights = s.me.flights ∧
        (o.mark = false → (t.ctx s.cur).words = s.me.words + o.len ∧ (t.ctx s.cur).status = s.me.status) ∧
        (o.mark = true → (t.ctx s.cur).words = 0 ∧ (t.core s.cur.tile s.cur.core).issue.current ≠ some s.cur.ctx ∧
          (t.ctx s.cur).status = if s.me.flights = [] then .ready else .parked)) ∧
      (o.mark = false → ∃ t, exec (.switch o) s = .next t ∧ onlyRegisters s t s.cur [] ∧
        (t.ctx s.cur).pc = s.me.pc + BitVec.ofNat 64 (2 * o.len) ∧ (t.ctx s.cur).status = .ready ∧ (t.ctx s.cur).words = 0 ∧
        (t.ctx s.cur).since = s.ticket ∧ (t.core s.cur.tile s.cur.core).issue.current ≠ some s.cur.ctx)) ∧
  ((∀ (o : Opnd) (s : State), s.mayRun (.g [o.d.toNat] []) →
      let c := (s.rg o.d.toNat).toNat
      let e := s.me.pc + BitVec.ofInt 64 (2 * o.imm)
      let nested : Bool := match s.me.loops with | [] => false | l :: _ => decide (l.stop < e)
      (o.imm = 0 → exec (.loop o) s = traps o s .illegalEncoding (Instr.loop o).info) ∧
      (o.imm ≠ 0 → c = 0 →
        exec (.loop o) s = jumps o (.g [o.d.toNat] []) s s (e + BitVec.ofNat 64 (2 * chainLen s.myTile.x e.toNat))) ∧
      (o.imm ≠ 0 → c ≠ 0 → (4 ≤ s.me.loops.length ∨ nested = true) →
        exec (.loop o) s = traps o s .loopNest (BitVec.ofNat 64 (s.me.loops.length + 8 * nested.toNat))) ∧
      (o.imm ≠ 0 → c ≠ 0 → s.me.loops.length < 4 → nested = false →
        exec (.loop o) s = completes o (.g [o.d.toNat] []) s
          (s.modMe fun k => { k with loops := ⟨k.pc + BitVec.ofNat 64 (2 * o.len), e, c⟩ :: k.loops }))) ∧
    ∀ (pc next start : Word) (n : Nat) (es : List LoopEntry),
      (1 < n → closeLoops pc next (⟨start, pc, n⟩ :: es) = (⟨start, pc, n - 1⟩ :: es, start)) ∧
      (n ≤ 1 → closeLoops pc next (⟨start, pc, n⟩ :: es) = closeLoops pc next es) ∧
      (∀ stop, pc < stop → stop < next → closeLoops pc next (⟨start, stop, n⟩ :: es) = closeLoops pc next es) ∧
      (∀ stop, stop ≠ pc → ¬(pc < stop ∧ stop < next) → closeLoops pc next (⟨start, stop, n⟩ :: es) = (⟨start, stop, n⟩ :: es, next)))

/-! ## Loads, stores, windows and atomics -/

/-- R7, R100, R101, R103 to R107, R113, R115, R120, R128, R140, R145, R161: The faults of a scalar access to a local space, the first in the
order of R105: BUFFER_ENGINE, then an address outside the space, W's hole, an access that leaves the space, misalignment where the
instruction asks for alignment, and a quoin. The access that raises none lies in the space. A load from a local space puts the bytes at a +
b + imm in flight for d, extended as it says, or the data error that it meets; a faulting one traps. LD reads T, A, C and W, and LDA T and
A. A store to T or A writes the low bytes of d at a + b + imm; a faulting one traps. STL waits first for the acknowledgements that its
context is owed at chase scope or wider, and for its accesses to memory outside that are on their way. A store of `n` bytes to a local space
of a core, or to T under key rows, reads back as stored, and every other byte reads as before: the bytes of the same space outside the
range, and every byte of every other memory. -/
def Obligations.LocalAccessesFaultLoadStoreAndReadBack : Prop :=
  (∀ (s : State) (sp : Space) (a n : Nat) (write forbidden aligned : Bool), sp ≠ .d → 0 < n →
      let r := s.accessFault sp a n write forbidden aligned
      let info := infoM a sp.code (sizeCode n) write
      let top := if sp = .w then 0x40000 else sp.size
      (forbidden = true → r = some (.bufferEngine, info)) ∧
      (forbidden = false →
        (top ≤ a → r = some (.spaceRange, info)) ∧
        (sp.size ≤ a → a < top → r = some (.addrUnmapped, info)) ∧
        (a < sp.size → sp.size < a + n → r = some (.windowCross, info)) ∧
        (a + n ≤ sp.size → aligned = true → a % n ≠ 0 → r = some (.align, info)) ∧
        (a + n ≤ sp.size → (aligned = false ∨ a % n = 0) → r = s.quoinFault s.cur.tile s.cur.core sp a n write))) ∧
  (∀ (o : Opnd) (s : State), s.mayRun (useLoad o) →
      let a := (s.rg o.a.toNat + s.rg o.b.toNat + BitVec.ofInt 64 o.imm).toNat
      let n := 2 ^ o.f.toNat
      let sp := accSpace o
      let v := s.readLocal s.cur.tile s.cur.core sp s.me.sys.bkey a n
      let bad := s.badLocal s.cur.tile s.cur.core sp s.me.sys.bkey a n
      let sx : Word := (BitVec.ofNat (8 * n) v).signExtend 64
      let loads (i : Instr) (fault : Option (Cause × Word)) (w : Word) : Prop :=
        (∀ c e, fault = some (c, e) → exec i s = traps o s c e) ∧
        (fault = none → bad = none → exec i s = completes o (useLoad o) s (s.lg o.d.toNat (.word w) o.len)) ∧
        (∀ u, fault = none → bad = some u → exec i s = completes o (useLoad o) s
          (s.launch (.g o.d.toNat) (.dataError .localEcc (infoM u sp.code (sizeCode n) false)) o.len))
      sp ≠ .d →
        loads (.ld o) (s.accessFault sp a n false (decide (sp = .x)) false) (if o.mf 6 6 = 1 then sx else BitVec.ofNat 64 v) ∧
        loads (.lda o) (s.accessFault sp a n false (decide (sp ≠ .t ∧ sp ≠ .a)) true) (BitVec.ofNat 64 v)) ∧
  (∀ (o : Opnd) (s : State), s.mayRun (useStore o) →
      let a := (s.rg o.a.toNat + s.rg o.b.toNat + BitVec.ofInt 64 o.imm).toNat
      let n := 2 ^ o.f.toNat
      let sp := accSpace o
      let other := decide (sp ≠ .t ∧ sp ≠ .a)
      let stored := s.writeLocal s.cur.tile s.cur.core sp s.me.sys.bkey a n (s.rg o.d.toNat).toNat
      let stores (i : Instr) (fault : Option (Cause × Word)) : Prop :=
        (∀ c e, fault = some (c, e) → exec i s = traps o s c e) ∧ (fault = none → exec i s = completes o (useStore o) s stored)
      let owed := (o.mf 5 3 ≤ 2 ∧ s.me.acks ≠ 0) ∨ s.awaitsOutside s.cur = true
      sp ≠ .d →
        stores (.st o) (s.accessFault sp a n true other false) ∧
        (owed → exec (.stl o) s = waits s s (.fence 2 (o.mf 5 3))) ∧
        (¬owed → stores (.stl o) (s.accessFault sp a n true other true))) ∧
  (∀ (s : State) (t c : Nat) (sp : Space) (key : BitVec 56) (a n v : Nat), sp ≠ .d → sp ≠ .x →
      let s' := s.writeLocal t c sp key a n v
      s'.readLocal t c sp key a n = v % 256 ^ n ∧
      (∀ b, b < a ∨ a + n ≤ b → s'.readLocal t c sp key b 1 = s.readLocal t c sp key b 1) ∧
      (∀ y d sp' b, y ≠ t ∨ sp' ≠ sp ∨ (sp ≠ .t ∧ d ≠ c) → (s'.localMem y d sp').bytes.read b = (s.localMem y d sp').bytes.read b) ∧
      (∀ u, s'.ctx u = s.ctx u) ∧ keepsEngines s s' ∧ keepsOutside s s')

/-- R107: The bank of a T address is its low bits with the parity of the key rows in force, so that the 4,096 bytes of a row are laid out anew:
two addresses never share a place, and a place lies in the row of its address. -/
def Obligations.BanksPermuteTheBytesOfARow : Prop :=
  ∀ (key : BitVec 56) (a b : Nat),
    (tPlace key a = tPlace key b → a = b) ∧ tPlace key a / 4096 = a / 4096 ∧ tPlace key a % 128 = a % 128

/-- R79, R106, R110 to R113, R146, R280 to R282: LDW converts the element at index a + b + imm of its window to the register type, STW encodes d
into it; a window that is malformed, an index outside it and a quoin trap. Both set the flags that the conversion raises. A load of an
uncorrectable unit puts the data error in flight. VLDF converts element e_0 + i of its window in every active lane, VSTF encodes each active
lane into it. A window that is malformed traps WINDOW_FORMAT, one that ends before the lowest active lane SPACE_RANGE, and one that ends
between WINDOW_CROSS. A load that meets an uncorrectable unit puts the data error in flight. An s4 access counts in nibbles: lane i lies in
the low half of byte m div 2 where its nibble address m is even, and in the high half where it is odd. A store of one half keeps the other. -/
def Obligations.WindowAccessesConvertTheirElements : Prop :=
  (∀ (o : Opnd) (s : State),
      let n := o.mf 3 0
      let w := windowOf ((s.core s.cur.tile s.cur.core).wdesc.get 0 n)
      let e := (s.rg o.a.toNat + s.rg o.b.toNat + BitVec.ofInt 64 o.imm).toNat
      let at_ := (w.place e).1
      let size := fmtBytes w.fmt
      let ty := if o.f = 0 then 0 else if o.f = 1 then 2 else 7
      let rnd := s.me.sys.fmode.toNat
      let fits (write : Bool) : Prop :=
        w.fault = none ∧ e < w.length ∧ s.quoinFault s.cur.tile s.cur.core w.space at_ size write = none
      let out := convert ty w.fmt (if w.round = 0 then rnd else w.round) 0 w.scale (if w.sat then .on else .off) (s.rg o.d.toNat).toNat
      (∀ k, w.fault = some k →
        (s.mayRun (useLoad o) → exec (.ldw o) s = traps o s .windowFormat (BitVec.ofNat 64 (n + 16 * k))) ∧
        (s.mayRun (useStore o) → exec (.stw o) s = traps o s .windowFormat (BitVec.ofNat 64 (n + 16 * k)))) ∧
      (w.fault = none → w.length ≤ e →
        (s.mayRun (useLoad o) → exec (.ldw o) s = traps o s .spaceRange (infoM e 7 (sizeCode size) false)) ∧
        (s.mayRun (useStore o) → exec (.stw o) s = traps o s .spaceRange (infoM e 7 (sizeCode size) true))) ∧
      (∀ u, fits false → s.badLocal s.cur.tile s.cur.core w.space s.me.sys.bkey at_ size = some u → s.mayRun (useLoad o) →
        exec (.ldw o) s = completes o (useLoad o) s
          (s.launch (.g o.d.toNat) (.dataError .localEcc (infoM u w.space.code (sizeCode size) false)) o.len)) ∧
      (fits false → s.badLocal s.cur.tile s.cur.core w.space s.me.sys.bkey at_ size = none → s.mayRun (useLoad o) →
        let r := convert w.fmt ty rnd w.scale 0 .vcvt (s.windowBits w e)
        exec (.ldw o) s = completes o (useLoad o) s
          ((s.addFlags r.2).lg o.d.toNat (.word (if o.f = 2 then (BitVec.ofNat 32 r.1).signExtend 64 else BitVec.ofNat 64 r.1)) o.len)) ∧
      (fits true → s.mayRun (useStore o) →
        exec (.stw o) s = completes o (useStore o) s ((s.windowStore w e out.1).addFlags out.2))) ∧
  (∀ (o : Opnd) (s : State), s.mayRun ⟨[], [], [], [], useMask o, []⟩ →
      let fmt := o.mf 9 6
      let b := laneBits fmt
      let k := o.fx.toNat / 8 % 16
      let w := windowOf (s.myCore.wdesc.get 0 k)
      let e0 := (s.rg o.a.toNat + BitVec.ofInt 64 o.imm).toNat
      let size := fmtBytes w.fmt
      let bare : Use := ⟨[], [], [], [], useMask o, []⟩
      let free (use : Use) : Prop := s.me.blocked use = false ∧ s.gate s.cur use = none
      let live (i : Nat) : Prop := i < 1024 / b ∧ s.lives o b i = true
      let each (P : Instr → Use → Bool → Prop) : Prop := P (.vldf o) (useVld o [o.a.toNat] []) false ∧ P (.vstf o) (useVst o [o.a.toNat] []) true
      let bad (i : Nat) : Option Nat := s.badLocal s.cur.tile s.cur.core w.space s.me.sys.bkey (w.place (e0 + i)).1 size
      let fits (write : Bool) : Prop := w.fault = none ∧ ∀ i, live i → e0 + i < w.length ∧
        s.quoinFault s.cur.tile s.cur.core w.space (w.place (e0 + i)).1 size write = none
      (each fun i use _ => free use → (∃ j, live j) → ∀ m, w.fault = some m → exec i s = traps o s .windowFormat (BitVec.ofNat 64 (k + 16 * m))) ∧
      (each fun i use write => free use → w.fault = none → ∀ j, live j → (∀ m, m < j → ¬live m) → w.length ≤ e0 + j →
        exec i s = traps o s .spaceRange (infoM (e0 + j) 7 (sizeCode size) write)) ∧
      (each fun i use write => free use → w.fault = none → ∀ j, live j → w.length ≤ e0 + j → (∃ m, m < j ∧ live m) →
        (∀ m, m < j → live m → e0 + m < w.length) →
        exec i s = traps o s .windowCross (infoM (e0 + j) 7 (sizeCode size) write)) ∧
      (each fun i _ _ => (∀ j, ¬live j) → exec i s = completes o bare s s) ∧
      (∀ j u, free (useVld o [o.a.toNat] []) → fits false → live j → bad j = some u → (∀ m, m < j → live m → bad m = none) →
        exec (.vldf o) s = completes o bare s ((s.launch (.v o.d.toNat) (.dataError .localEcc (infoM u w.space.code (sizeCode size) false))
          o.len).consume s.cur (useVld o [o.a.toNat] []))) ∧
      (free (useVld o [o.a.toNat] []) → (∃ j, live j) → fits false →
        (∀ i, live i → bad i = none) →
        let r (i : Nat) : Nat × Flagset := convert w.fmt fmt (roundMode (o.mf 2 0) s.me.sys.fmode) w.scale 0 .vcvt (s.windowBits w (e0 + i))
        ∃ v fl, exec (.vldf o) s = completes o bare s
            (((s.addFlags fl).lv o.d.toNat (.vec (BitVec.ofNat 1024 v)) o.len).consume s.cur (useVld o [o.a.toNat] [])) ∧
          raisedBy s o b r fl ∧ v < 2 ^ 1024 ∧ ∀ i, live i → lane b v i = (r i).1 % 2 ^ b) ∧
      (free (useVst o [o.a.toNat] []) → (∃ j, live j) → fits true →
        let mode := if o.mf 2 0 ≠ 0 then o.mf 2 0 else if w.round ≠ 0 then w.round else s.me.sys.fmode.toNat
        let r (i : Nat) : Nat × Flagset :=
          convert fmt w.fmt mode 0 w.scale (if w.sat then .on else .off) (lane b (s.rv o.d.toNat).toNat i)
        let lanes := (List.range (1024 / b)).filter (s.lives o b)
        exec (.vstf o) s = completes o bare s (((lanes.foldl
          (fun (s1 : State) i => (s1.windowStore w (e0 + i) (r i).1).addFlags (r i).2) s).healLanes w.space
            (wholeBytes (w.fmt == 13 && w.pack == 0) size (lanes.map fun i => w.place (e0 + i)))).consume s.cur (useVst o [o.a.toNat] [])))) ∧
  (∀ (o : Opnd) (s : State), o.mf 9 6 = 13 → o.fx.toNat % 8 ≤ 1 →
      let sp := spaceOf (o.fx.toNat % 8)
      let base := 2 * (s.rg o.a.toNat + BitVec.ofInt 64 o.imm).toNat
      let bare : Use := ⟨[], [], [], [], useMask o, []⟩
      let free (use : Use) : Prop := s.mayRun bare ∧ s.me.blocked use = false ∧ s.gate s.cur use = none
      let key := s.me.sys.bkey
      let some_ := ∃ i, i < 256 ∧ s.lives o 4 i = true
      let old (c : Nat) : Nat := s.readLocal s.cur.tile s.cur.core sp key c 1
      let loads (i : Instr) (use : Use) (off : Nat → Nat) : Prop :=
        let at_ (j : Nat) : Nat := (base + off j) % 2 ^ 65
        free use → some_ → (∀ j, j < 256 → s.lives o 4 j = true → at_ j / 2 < sp.size ∧
            s.quoinFault s.cur.tile s.cur.core sp (at_ j / 2) 1 false = none ∧ s.badLocal s.cur.tile s.cur.core sp key (at_ j / 2) 1 = none) →
          ∃ v, exec i s = completes o bare s (((s.addFlags 0).lv o.d.toNat (.vec (BitVec.ofNat 1024 v)) o.len).consume s.cur use) ∧ v < 2 ^ 1024 ∧
            ∀ j, j < 256 → lane 4 v j = if s.lives o 4 j then (if at_ j % 2 = 0 then old (at_ j / 2) % 16 else old (at_ j / 2) / 16)
              else if (s.myCore.binding s.cur.ctx true o.d.toNat).isSome then 0 else lane 4 (s.me.v o.d.toNat).toNat j
      let stores (i : Instr) (use : Use) (off : Nat → Nat) : Prop :=
        let at_ (j : Nat) : Nat := (base + off j) % 2 ^ 65
        free use → some_ → (∀ j, j < 256 → s.lives o 4 j = true → at_ j / 2 < sp.size ∧
            s.quoinFault s.cur.tile s.cur.core sp (at_ j / 2) 1 true = none) →
          ∃ s1 : State, exec i s = completes o bare s (s1.consume s.cur use) ∧ ∀ c, c < 2 * sp.size →
            let new := s1.readLocal s.cur.tile s.cur.core sp key (c / 2) 1
            let half (b : Nat) : Nat := if c % 2 = 0 then b % 16 else b / 16
            (∀ j, j < 256 → s.lives o 4 j = true → at_ j = c → (∀ k, k < 256 → j < k → s.lives o 4 k = true → at_ k ≠ c) →
              half new = lane 4 (s.rv o.d.toNat).toNat j) ∧
            ((∀ j, j < 256 → s.lives o 4 j = true → at_ j ≠ c) → half new = half (old (c / 2)))
      let plain (i : Nat) : Nat := i
      let stride (i : Nat) : Nat := i * (s.rg o.b.toNat).toNat
      let index (i : Nat) : Nat := lane 4 (s.rv o.b.toNat).toNat i
      loads (.vld o) (useVld o [o.a.toNat] []) plain ∧ loads (.vlds o) (useVld o [o.a.toNat, o.b.toNat] []) stride ∧
      loads (.vldg o) (useVld o [o.a.toNat] [o.b.toNat]) index ∧
      stores (.vst o) (useVst o [o.a.toNat] []) plain ∧ stores (.vsts o) (useVst o [o.a.toNat, o.b.toNat] []) stride ∧
      stores (.vstg o) (useVst o [o.a.toNat] [o.b.toNat]) index)

/-- R120, R147, R254 to R258, R261 to R263: A quire access reaches byte base + ((LP + k) mod N) × leaf + offset of T. It traps while the quire
is not enabled, outside the leaf and outside the allowed distances; a participant whose core has arrived waits for the turns that it has
arrived for. QARRIVE counts an arrival of its core, up to 15, once the context's accesses are performed; QWAIT waits for the turns it has
arrived for; QSTAT reads the quire; QCFG loads the descriptor at its operand, and a bad field disables the quire with its place. A turn
takes one arrival of every participant and moves LP on by one. -/
def Obligations.QuiresAreReachedArriveAndTurn : Prop :=
  (∀ (o : Opnd) (s : State),
      let n := o.mf 2 0
      let q := s.quire s.cur.tile n
      let off := (s.rg o.a.toNat + s.rg o.b.toNat + BitVec.ofInt 64 o.imm).toNat
      let k := (BitVec.ofNat 5 (o.mf 7 3)).toInt
      let size := 2 ^ o.f.toNat
      let bank := q.bank s.cur.core
      let addr := q.base + (((q.lp : Int) + k) % (q.depth : Int)).toNat * q.leaf + off
      let inside := off + size ≤ q.leaf ∧ -((q.depth : Int) - 1 - q.dmax) ≤ k ∧ k ≤ q.dmax
      let each (P : (Instr × Use × Bool) → Prop) : Prop := P (.ldq o, useLoad o, false) ∧ P (.stq o, useStore o, true)
      each (fun p => s.mayRun p.2.1 → q.en = false →
        exec p.1 s = traps o s .quireDistance (BitVec.ofNat 64 (n + 8 * o.mf 7 3 + 256))) ∧
      each (fun p => s.mayRun p.2.1 → q.en = true → q.leaf ≤ off →
        exec p.1 s = traps o s .spaceRange (infoM off 6 (sizeCode size) p.2.2)) ∧
      each (fun p => s.mayRun p.2.1 → q.en = true → off < q.leaf → q.leaf < off + size →
        exec p.1 s = traps o s .windowCross (infoM off 6 (sizeCode size) p.2.2)) ∧
      each (fun p => s.mayRun p.2.1 → q.en = true → off + size ≤ q.leaf → off < q.leaf → ¬(-((q.depth : Int) - 1 - q.dmax) ≤ k ∧ k ≤ q.dmax) →
        exec p.1 s = traps o s .quireDistance (BitVec.ofNat 64 (n + 8 * o.mf 7 3))) ∧
      each (fun p => s.mayRun p.2.1 → q.en = true → inside → q.takes s.cur.core = true → bank ≠ 0 → s.me.granted = false →
        exec p.1 s = waits s s (.quireTurns n bank)) ∧
      (q.en = true → inside → (q.takes s.cur.core = false ∨ bank = 0 ∨ s.me.granted = true) →
        (∀ u, s.mayRun (useLoad o) → s.quoinFault s.cur.tile s.cur.core .t addr size false = none →
          s.badLocal s.cur.tile s.cur.core .t s.me.sys.bkey addr size = some u →
          exec (.ldq o) s = completes o (useLoad o) s
            (s.launch (.g o.d.toNat) (.dataError .localEcc (infoM u 0 (sizeCode size) false)) o.len)) ∧
        (s.mayRun (useLoad o) → s.quoinFault s.cur.tile s.cur.core .t addr size false = none →
          s.badLocal s.cur.tile s.cur.core .t s.me.sys.bkey addr size = none →
          exec (.ldq o) s = completes o (useLoad o) s
            (s.lg o.d.toNat (.word (BitVec.ofNat 64 (s.readLocal s.cur.tile s.cur.core .t s.me.sys.bkey addr size))) o.len)) ∧
        (s.mayRun (useStore o) → s.quoinFault s.cur.tile s.cur.core .t addr size true = none →
          exec (.stq o) s = completes o (useStore o) s
            (s.writeLocal s.cur.tile s.cur.core .t s.me.sys.bkey addr size (s.rg o.d.toNat).toNat)))) ∧
  ((∀ (o : Opnd) (s : State),
      let n := o.a.toNat % 16
      let t := s.cur.tile
      let c := s.cur.core
      let q := s.quire t n
      let a := (s.rg o.d.toNat).toNat
      let v := s.readLocal t 0 .t noKey a 32
      (s.mayRun .none →
        (q.takes c = false → exec (.qarrive o) s = completes o .none s s) ∧
        (q.takes c = true → s.awaitsOutside s.cur = true → exec (.qarrive o) s = waits s s (.fence 2 3)) ∧
        (q.takes c = true → s.awaitsOutside s.cur = false → 15 ≤ q.bank c → exec (.qarrive o) s = waits s s (.quireBank n 15)) ∧
        (q.takes c = true → s.awaitsOutside s.cur = false → q.bank c < 15 → ∃ s1, exec (.qarrive o) s = completes o .none s s1 ∧ (s1.quire t n).bank c = q.bank c + 1 ∧
          (∀ p, p ≠ c → (s1.quire t n).bank p = q.bank p) ∧ keepsMemory s s1 ∧ keepsRegisters s s1 s.cur [] ∧ keepsSpecial s s1 ∧
          keepsOutside s s1) ∧
        (q.en = false ∨ (q.takes c = true ∧ q.bank c = 0) ∨ (q.takes c = false ∧ s.me.granted = true) →
          exec (.qwait o) s = completes o .none s s) ∧
        (q.takes c = true → q.bank c ≠ 0 → exec (.qwait o) s = waits s s (.quireBank n 1)) ∧
        (q.en = true → q.takes c = false → s.me.granted = false → exec (.qwait o) s = waits s s (.quireNext n q.turns))) ∧
      (s.mayRun (.g [] [o.d.toNat]) → ∃ v, exec (.qstat o) s = completes o (.g [] [o.d.toNat]) s (s.wg o.d.toNat v) ∧
        (q.base + q.lp * q.leaf < 2 ^ 20 →
          v.extractLsb' 0 20 = BitVec.ofNat 20 (if q.en then q.base + q.lp * q.leaf else 0) ∧ v.extractLsb' 20 4 = BitVec.ofNat 4 q.lp)) ∧
      (s.mayRun (.g [o.d.toNat] []) →
        (0x100000 ≤ a → exec (.qcfg o) s = traps o s .spaceRange (infoM a 0 3 false)) ∧
        (a < 0x100000 → a % 32 ≠ 0 → exec (.qcfg o) s = traps o s .align (infoM a 0 3 false)) ∧
        (∀ e w, a < 0x100000 → a % 32 = 0 → s.descHit a 32 = some (e, w) → exec (.qcfg o) s = traps o s e w) ∧
        (a < 0x100000 → a % 32 = 0 → s.descHit a 32 = none → s.quireIdle t n = false → exec (.qcfg o) s = waits s s (.quireClear n)) ∧
        (∀ x, a < 0x100000 → a % 32 = 0 → s.descHit a 32 = none → s.quireIdle t n = true → s.badLocal t 0 .t noKey a 32 = some x →
          exec (.qcfg o) s = traps o s .localEcc (infoM x 0 3 false)) ∧
        (a < 0x100000 → a % 32 = 0 → s.descHit a 32 = none → s.quireIdle t n = true → s.badLocal t 0 .t noKey a 32 = none →
          ∃ s1, exec (.qcfg o) s = completes o (.g [o.d.toNat] []) s s1 ∧ keepsMemory s s1 ∧ keepsRegisters s s1 s.cur [] ∧
            (∀ k, quireCheck v = some k → (s1.quire t n).en = false ∧ (s1.quire t n).err = 1 + k) ∧
            (quireCheck v = none → v / 2 ^ 80 % 2 = 1 → s1.quire t n = {
              en := true, base := v % 2 ^ 20, leaf := v / 2 ^ 32 % 2 ^ 20, depth := v / 2 ^ 64 % 256, dmax := v / 2 ^ 72 % 256
              parts := BitVec.ofNat 14 (v / 2 ^ 96), lp := v / 2 ^ 88 % 256, turns := BitVec.ofNat 64 (v / 2 ^ 128), banks := []
              tagged := q.tagged, err := 0, raw := v, marks := [] })))) ∧
    ∀ (t n : Nat) (s : State),
      let q := s.quire t n
      ((q.en = true ∧ ∀ p, p < 14 → q.parts.getLsbD p = true → 1 ≤ q.bank p) → s.unitHeld t 3 n = false → ∃ s1,
        exec (.quireTurn t n) s = .next s1 ∧ (s1.quire t n).lp = (q.lp + 1) % q.depth ∧ (s1.quire t n).turns = q.turns + 1 ∧
        (∀ p, p < 14 → q.parts.getLsbD p = true → (s1.quire t n).bank p = q.bank p - 1) ∧ keepsMemory s s1) ∧
      (s.vectorDue t n = true → s.unitHeld t 3 n = false → ∃ s1, exec (.vectorUnitArrival t n) s = .next s1 ∧
        (s1.quire t n).bank 13 = q.bank 13 + 1 ∧ keepsMemory s s1))

/-- R106, R122, R140, R160, R349, R357: An atomic in T reads the old value, writes the new one where it differs, and puts the old value in
flight for d, or the data error that it meets, and then writes nothing. A space of a buffer engine, an address outside T or misaligned, and
a quoin trap. An atomic in D, through the translation buffer or physical, reads the old value of a local page under its key, writes the new
one, and puts the old value in flight for d, in one event; AMOCAS writes nothing where it leaves the old value. On a page of another kind it
traps ATOMIC_SPACE, under a key slot that is not loaded KEY_SLOT, on poison its result is the data error, and a page that the buffer lacks
makes the context wait. -/
def Obligations.AtomicsReadModifyAndWrite : Prop :=
  (∀ (o : Opnd) (s : State),
      let n := if o.mf 2 2 = 1 then 4 else 8
      let a := (s.rg o.a.toNat).toNat
      let x := (s.rg (if o.r then o.b.toNat else o.d.toNat)).toNat % 256 ^ n
      let d := (s.rg o.d.toNat).toNat % 256 ^ n
      let old := s.readLocal s.cur.tile s.cur.core .t s.me.sys.bkey a n
      let fault := s.accessFault (accSpace o) a n true (decide (accSpace o ≠ .t ∧ accSpace o ≠ .d)) true
      let val (v : Nat) : Int := if o.mf 6 6 = 1 then (v : Int) else if 2 * v < 256 ^ n then (v : Int) else (v : Int) - 256 ^ n
      let does (i : Instr) (use : Use) (new : Nat) : Prop := s.mayRun use →
        (∀ c e, fault = some (c, e) → exec i s = traps o s c e) ∧
        (∀ u, accSpace o = .t → fault = none → s.badLocal s.cur.tile s.cur.core .t s.me.sys.bkey a n = some u →
          exec i s = completes o use s (s.launch (.g o.d.toNat) (.dataError .localEcc (infoM u 0 (sizeCode n) false)) o.len)) ∧
        (accSpace o = .t → fault = none → s.badLocal s.cur.tile s.cur.core .t s.me.sys.bkey a n = none →
          exec i s = completes o use s
            ((if new % 256 ^ n = old then s else s.writeLocal s.cur.tile s.cur.core .t s.me.sys.bkey a n (new % 256 ^ n)).lg
              o.d.toNat (.word (BitVec.ofNat 64 old)) o.len))
      does (.amoadd o) (useAmo o false) (old + x) ∧ does (.amoand o) (useAmo o false) (old &&& x) ∧
      does (.amoor o) (useAmo o false) (old ||| x) ∧ does (.amoxor o) (useAmo o false) (old ^^^ x) ∧
      does (.amomin o) (useAmo o false) (if val x < val old then x else old) ∧
      does (.amomax o) (useAmo o false) (if val old < val x then x else old) ∧
      does (.amoswp o) (useAmo o false) x ∧
      does (.amocas o) (useAmo o true) (if old = d then x else old)) ∧
  (∀ (o : Opnd) (s : State), accSpace o = .d →
      let n := if o.mf 2 2 = 1 then 4 else 8
      let a := (s.rg o.a.toNat).toNat
      let x := (s.rg (if o.r then o.b.toNat else o.d.toNat)).toNat % 256 ^ n
      let d := (s.rg o.d.toNat).toNat % 256 ^ n
      let t := s.cur.tile
      let slot := s.mySlot
      let node := (s.tile t).eng.xnode
      let val (v : Nat) : Int := if o.mf 6 6 = 1 then (v : Int) else if 2 * v < 256 ^ n then (v : Int) else (v : Int) - 256 ^ n
      let does (i : Instr) (use : Use) (cas : Bool) (f : Nat → Nat) : Prop := s.mayRun use → s.dRange a n = none → a % n = 0 →
        (s.physical = false → node.hit a true = none → exec i s = waits s s (.xlate a true a (sizeCode n))) ∧
        (∀ e, s.physical = false → node.hit a true = some e →
          let pa := e.pa a
          let s1 := s.modXnode t (·.fill e)
          (entryKind e.entry ≠ 0 → exec i s = traps o s .atomicSpace (infoM a 4 (sizeCode n) true)) ∧
          (entryKind e.entry = 0 → s.keyPair pa slot = none → exec i s = traps o s .keySlot (keySlotInfo slot (actorOf pa))) ∧
          (∀ key, entryKind e.entry = 0 → s.keyPair pa slot = some key → s.dram.poisoned pa n = true →
            exec i s = completes o use s (s1.launch (.g o.d.toNat) (.dataError .dramPoison (infoM a 4 (sizeCode n) true)) o.len)) ∧
          (∀ key, entryKind e.entry = 0 → s.keyPair pa slot = some key → s.dram.poisoned pa n = false →
            let old := s.dram.read key pa n
            let new := f old % 256 ^ n
            exec i s = completes o use s ((if cas = true ∧ new = old then s1
              else (s1.dramWrite key pa n new).invalidateDups t s.cur.core s.cur.ctx a e).lg o.d.toNat (.word (BitVec.ofNat 64 old)) o.len))) ∧
        (∀ key, s.physical = true → s.keyPair a slot = some key → s.dram.poisoned a n = false →
          let old := s.dram.read key a n
          let new := f old % 256 ^ n
          exec i s = completes o use s
            ((if cas = true ∧ new = old then s else s.dramWrite key a n new).lg o.d.toNat (.word (BitVec.ofNat 64 old)) o.len))
      does (.amoadd o) (useAmo o false) false (fun old => old + x) ∧ does (.amoand o) (useAmo o false) false (fun old => old &&& x) ∧
      does (.amoor o) (useAmo o false) false (fun old => old ||| x) ∧ does (.amoxor o) (useAmo o false) false (fun old => old ^^^ x) ∧
      does (.amomin o) (useAmo o false) false (fun old => if val x < val old then x else old) ∧
      does (.amomax o) (useAmo o false) false (fun old => if val old < val x then x else old) ∧
      does (.amoswp o) (useAmo o false) false (fun _ => x) ∧
      does (.amocas o) (useAmo o true) true (fun old => if old = d then x else old))

/-- R101, R140, R349, R350, R353, R354, R357, R360, R363: An access to D goes through the translation buffer, or is physical. A page that the
buffer lacks makes the context wait; a key slot that the actor has not loaded traps KEY_SLOT; a load of local pages puts the value under the
slot's key in flight, or DRAM_POISON, and changes nothing but the order of the buffer; a store of local pages writes under it; an atomic
does both in one. DREQ without an arc to an actor traps PORT_UNBOUND; one short of slots for its replies waits; else it takes those slots
and its sequence numbers, and owes its replies in order. XLATE with a reserved bit set traps; a shootdown and a new generation trap
PRIVILEGE at user privilege; an address beyond D gives SPACE_RANGE in its result; a translation gives what the node's tables give, under the
new generation and after the page is dropped where it asks for them; a shootdown waits until every node has acknowledged, and gives 0. -/
def Obligations.AccessesToDAndTranslations : Prop :=
  (∀ (o : Opnd) (s : State), accSpace o = .d →
      let a := (s.rg o.a.toNat + s.rg o.b.toNat + BitVec.ofInt 64 o.imm).toNat
      let n := 2 ^ o.f.toNat
      let t := s.cur.tile
      let slot := s.mySlot
      let x := (s.tile t).eng.xnode
      let one := a % 2 ^ 19 + n ≤ 2 ^ 19
      let inside := s.dRange a n = none
      (s.mayRun (useLoad o) → inside → s.physical = false → one → x.hit a false = none →
        exec (.ld o) s = waits s s (.xlate a false a (sizeCode n))) ∧
      (∀ e, s.mayRun (useLoad o) → inside → s.physical = false → one → x.hit a false = some e → entryKind e.entry = 0 →
        let pa := s.readPa t e a
        let s1 := s.modXnode t (·.fill e)
        (s.keyPair pa slot = none → exec (.ld o) s = traps o s .keySlot (keySlotInfo slot (actorOf pa))) ∧
        (∀ key, s.keyPair pa slot = some key → s.dram.poisoned pa n = true →
          exec (.ld o) s = completes o (useLoad o) s (s1.launch (.g o.d.toNat) (.dataError .dramPoison (infoM a 4 (sizeCode n) false)) o.len)) ∧
        (∀ key, s.keyPair pa slot = some key → s.dram.poisoned pa n = false →
          exec (.ld o) s = completes o (useLoad o) s (s1.lg o.d.toNat
            (.word (extend n (o.mf 6 6 == 1) (s.dram.read key pa n))) o.len))) ∧
      (∀ e, s.mayRun (useStore o) → inside → s.physical = false → one → x.hit a true = some e → entryKind e.entry = 0 →
        (s.keyPair (e.pa a) slot = none → exec (.st o) s = traps o s .keySlot (keySlotInfo slot (actorOf (e.pa a)))) ∧
        ∀ key, s.keyPair (e.pa a) slot = some key →
          exec (.st o) s = completes o (useStore o) s
            (((s.modXnode t (·.fill e)).dramWrite key (e.pa a) n ((s.rg o.d.toNat).toNat % 256 ^ n)).invalidateDups
              t s.cur.core s.cur.ctx a e)) ∧
      (∀ key, s.mayRun (useLoad o) → inside → s.physical = true → s.keyPair a slot = some key → s.dram.poisoned a n = false →
        exec (.ld o) s = completes o (useLoad o) s (s.lg o.d.toNat (.word (extend n (o.mf 6 6 == 1) (s.dram.read key a n))) o.len)) ∧
      (∀ key, s.mayRun (useStore o) → inside → s.physical = true → s.keyPair a slot = some key →
        exec (.st o) s = completes o (useStore o) s (s.dramWrite key a n ((s.rg o.d.toNat).toNat % 256 ^ n)))) ∧
  (∀ (o : Opnd) (s : State),
      let t := s.cur.tile
      let ga := (s.rg o.a.toNat).toNat
      let gd := (s.rg o.d.toNat).toNat
      let b := s.rg o.b.toNat
      let d := dreqDesc b
      let p := s.outPort t d.port
      let n := replyCount d.op d.x
      let use : Use := .g [o.a.toNat, o.b.toNat, o.d.toNat] []
      let useX : Use := .g [o.a.toNat, o.b.toNat] [o.d.toNat]
      let owed := s.me.acks ≠ 0 ∨ s.awaitsOutside s.cur = true
      let takes := d.op = 1 ∨ d.op = 2 ∨ d.op = 3
      let block : Token := if takes then BitVec.ofNat 1024 (s.readLocal t s.cur.core .t s.myKey gd 128) else 0
      let result (x : Word) (s1 : State) : Prop := exec (.xlate o) s = completes o useX s (s1.lg o.d.toNat (.word x) o.len)
      let gen : BitVec 32 := b.extractLsb' 32 32
      let raised := if gen = 0 then s else s.modXnode t (·.raise gen)
      let page := raised.pageHolding t ga
      let shoot := if b.getLsbD 2 then s.myTile.eng.xnode.shootOf s.cur else none
      let dropped := if b.getLsbD 3 then raised.modXnode t (·.drop page.1 page.2) else raised
      (s.mayRun use →
        (p.arc = false ∨ Tag.kind p.dtag ≠ 3 → exec (.dreq o) s = traps o s .portUnbound (BitVec.ofNat 64 (d.port + 16))) ∧
        (p.arc = true → Tag.kind p.dtag = 3 →
          (d.op ≠ 4 → 2 ^ 57 ≤ ga → ∃ info, exec (.dreq o) s = traps o s .spaceRange info) ∧
          (d.op = 4 ∨ ga < 2 ^ 57 →
            (takes → 0x100000 ≤ gd → exec (.dreq o) s = traps o s .spaceRange (infoM gd 0 3 false)) ∧
            (takes → gd + 128 ≤ 0x100000 → gd % 128 ≠ 0 → exec (.dreq o) s = traps o s .align (infoM gd 0 3 false)) ∧
            ((takes → gd + 128 ≤ 0x100000 ∧ gd % 128 = 0 ∧ s.quoinFault t s.cur.core .t gd 128 false = none ∧
                s.badLocal t s.cur.core .t s.myKey gd 128 = none) →
              d.addrFault (d.addrs (s.rg o.a.toNat) block.toNat) = none →
              (owed → exec (.dreq o) s = waits s s (.fence 2 2)) ∧
              (¬owed → p.slots < n ∨ p.seamed = true → exec (.dreq o) s = waits s s (.dramSlots d.port n)) ∧
              (¬owed → n ≤ p.slots → p.seamed = false → d.malformed = false → Tag.kind d.rtag ≤ 1 → (s.tileOf d.rtag).isSome →
                ∃ s1, exec (.dreq o) s = completes o use s s1 ∧ (s1.outPort t d.port).seq = p.seq + (if d.op = 1 then 2 else 1) ∧
                  (s1.outPort t d.port).slots = p.slots - n ∧ (s1.outPort t d.port).owed = p.owed ++
                    ((List.range n).map fun i => ⟨p.seq, i, d.rtag, d.rport, ⟨s.cur.core, s.cur.ctx⟩⟩) ∧
                  keepsMemory s s1 ∧ keepsRegisters s s1 s.cur [] ∧ keepsSpecial s s1))))) ∧
      (s.mayRun useX →
        (b.extractLsb' 4 28 ≠ 0 → exec (.xlate o) s = traps o s .reservedNonzero (Instr.xlate o).info) ∧
        (b.extractLsb' 4 28 = 0 →
          (s.me.trap.ts.priv = false → b.getLsbD 2 = true ∨ gen ≠ 0 → exec (.xlate o) s = traps o s .privilege (Instr.xlate o).info) ∧
          (s.me.trap.ts.priv = true ∨ (b.getLsbD 2 = false ∧ gen = 0) →
            (shoot = some [] → ∃ s1, result 0 s1 ∧ s1.myTile.eng.xnode.shootOf s.cur = none ∧
              keepsMemory s s1 ∧ keepsRegisters s s1 s.cur [] ∧ keepsSpecial s s1) ∧
            (∀ x xs, shoot = some (x :: xs) → exec (.xlate o) s = waits s s .shootdown) ∧
            (shoot = none →
              (2 ^ 57 ≤ ga → ∃ s1, result (BitVec.ofNat 64 (2 ^ 63 + 2 ^ 50 * Cause.spaceRange.code)) s1 ∧ keepsMemory s s1 ∧
                keepsRegisters s s1 s.cur [] ∧ keepsSpecial s s1) ∧
              (ga < 2 ^ 57 → b.getLsbD 2 = false → ∃ s1,
                result (xlateResult s.me.trap.ts.priv ga (dropped.xlate t ga (b.getLsbD 0) (b.getLsbD 1)).2) s1 ∧
                keepsMemory s s1 ∧ keepsRegisters s s1 s.cur [] ∧ keepsSpecial s s1) ∧
              (ga < 2 ^ 57 → b.getLsbD 2 = true → ∃ s1, exec (.xlate o) s = waits s s1 .shootdown ∧
                s1.myTile.eng.xnode.shootOf s.cur = some (s.nodesOf s.myTile.eng.xnode.chase) ∧
                keepsMemory s s1 ∧ keepsRegisters s s1 s.cur [] ∧ keepsSpecial s s1))))))

/-! ## Order, priority, traps and system registers -/

/-- R128, R164, R165: A fence completes where the context owes nothing of its kind, and else waits: FENCE and FENCE.S for results in flight,
stores to memory outside the module and, at chase scope or wider, owed acknowledgements; FENCE.L for results; FENCE.T for stores; FENCE.E
for engine operations. BAR by a core that is not in its mask waits as an observer; by one in it, it opens an idle barrier with its mask, or
arrives at an open one that has latched its core, or queues with its mask. Where it is the last to arrive and no context queues, every
context that waits at the barrier completes its BAR, the context itself too, and the barrier is idle. -/
def Obligations.FencesAndBarriersWait : Prop :=
  (∀ (o : Opnd) (s : State), s.mayRun .none →
      let scope := o.x.toNat / 8 % 8
      let loaded := s.me.flights = []
      let stored := s.outsideStores s.cur = false
      let acked := 2 < scope ∨ s.me.acks = 0
      let fences (i : Instr) (kind : Nat) (owesNothing : Prop) : Prop :=
        (owesNothing → exec i s = completes o .none s s) ∧ (¬owesNothing → exec i s = waits s s (.fence kind scope))
      fences (.fence o) 0 (loaded ∧ stored ∧ acked) ∧ fences (.fenceL o) 1 loaded ∧ fences (.fenceS o) 2 (loaded ∧ stored ∧ acked) ∧
      fences (.fenceT o) 3 stored ∧ fences (.fenceE o) 4 (s.operationsOpen s.cur = false)) ∧
  (∀ (o : Opnd) (s : State), s.mayRun .none →
      let u := s.cur
      let n := o.x.toNat / 128 % 8
      let mask := BitVec.ofNat 4 (o.x.toNat / 8 % 16)
      let mine : BitVec 4 := 1#4 <<< u.core
      let b := s.barrier u.tile n
      let sets (b : Barrier) : State := s.setBarrier u.tile n b
      (mask.getLsbD u.core = false → exec (.bar o) s = waits s (sets b) (.bar n 0 true)) ∧
      (mask.getLsbD u.core = true →
        (b.open_ = false → mask ≠ mine → exec (.bar o) s = waits s (sets ⟨true, mask, mine⟩) (.bar n 0 false)) ∧
        (b.open_ = true → b.latched.getLsbD u.core = true → b.arrived.getLsbD u.core = false → b.arrived ||| mine ≠ b.latched →
          exec (.bar o) s = waits s (sets { b with arrived := b.arrived ||| mine }) (.bar n 0 false)) ∧
        (b.open_ = true → (b.latched.getLsbD u.core = false ∨ b.arrived.getLsbD u.core = true) →
          exec (.bar o) s = waits s (sets b) (.bar n mask false)) ∧
        (s.barQueue u.tile n = [] → (s.ctx u).status = .running →
          decode (fetchWords s.myTile.x 5 s.me.pc.toNat) = .ok (.bar o, o.len) →
          (b.open_ = false ∧ mask = mine ∨
            b.open_ = true ∧ b.latched.getLsbD u.core = true ∧ b.arrived.getLsbD u.core = false ∧ b.arrived ||| mine = b.latched) →
          ∃ t, exec (.bar o) s = .next t ∧ t.barrier u.tile n = Barrier.idle ∧ (t.ctx u).waits = none ∧
            (s.me.loops = [] → (t.ctx u).pc = s.me.pc + BitVec.ofNat 64 (2 * o.len)) ∧
            ∀ v m obs, v.tile = u.tile → v.core < 4 → v.ctx < 16 → (s.ctx v).waits = some (.bar n m obs) → (t.ctx v).waits = none)))

/-- R137, R163, R168, R169, R175 to R177: WAITEV and POLLEV take the oldest readable record into d and d + 1; with none, WAITEV waits and POLLEV
writes zeros. One of the two in flight stalls the instruction; one that is a bound stream register traps STREAM_DIRECTION, whatever its
stream holds. PRIO sets the class up to the cap and traps above it; FREQREQ sets the core's request; RDTIME and RDCYC read the reference
time and the cycle counter; SLEEP waits until its deadline or a readable record, and is over at once where either is there. -/
def Obligations.EventWaitsClassRequestTimeAndSleep : Prop :=
  (∀ (o : Opnd) (s : State), s.mayRun .none → o.d.toNat % 2 = 0 →
      let d := o.d.toNat
      let q := s.myCore.evq
      let bound (n : Nat) : Bool := d != 0 && (s.myCore.binding s.cur.ctx false n).isSome
      let put (s1 : State) (x y : Word) : Prop := (d ≠ 0 → s1.me.g d = x ∧ s1.me.g (d + 1) = y) ∧
        keepsRegisters s s1 s.cur (if d = 0 then [] else [.g d, .g (d + 1)]) ∧ keepsMemory s s1 ∧ keepsSpecial s s1 ∧ keepsOutside s s1
      (bound d = false → bound (d + 1) = false → s.me.blocked (useEvent o) = true → ∀ i ∈ [Instr.waitev o, .pollev o],
        exec i s = .next (s.modMe fun k => { k with stalled := true })) ∧
      (bound d = false → bound (d + 1) = false → s.mayRun (useEvent o) →
        (∀ r rest, q.ready = r :: rest → ∃ s1, exec (.waitev o) s = completes o (useEvent o) s s1 ∧
          exec (.pollev o) s = completes o (useEvent o) s s1 ∧ s1.myCore.evq = { q with ready := rest } ∧ put s1 r.bits.1 r.bits.2) ∧
        (q.ready = [] → exec (.waitev o) s = waits s s .event ∧
          ∃ s1, exec (.pollev o) s = completes o (useEvent o) s s1 ∧ s1.myCore.evq = q ∧ put s1 0 0)) ∧
      (bound d = true ∨ bound (d + 1) = true → ∃ info, exec (.waitev o) s = traps o s .streamDirection info ∧
        exec (.pollev o) s = traps o s .streamDirection info ∧
        info.toNat % 64 = if bound d then d else d + 1)) ∧
  (∀ (o : Opnd) (s : State),
      let c := o.imm.toNat
      let cap := s.me.sys.cap.toNat
      let a := o.a.toNat
      let deadline := (s.rg a).toNat
      let beyond := s.myCore.evq.ready ≠ [] ∨ (a ≠ 0 ∧ deadline ≤ s.rtime s.cur.tile)
      (s.mayRun .none →
        (c ≤ 3 → c ≤ cap → exec (.prio o) s = completes o .none s (s.modMe fun k => { k with sys := { k.sys with cls := BitVec.ofNat 2 c } })) ∧
        (3 < c ∨ cap < c → exec (.prio o) s = traps o s .priorityRange (BitVec.ofNat 64 (c + 256 * cap))) ∧
        exec (.freqreq o) s = completes o .none s (s.modMyCore fun k => { k with freqReq := c })) ∧
      (s.mayRun (.g [] [o.d.toNat]) →
        exec (.rdtime o) s = completes o (.g [] [o.d.toNat]) s (s.wg o.d.toNat (BitVec.ofNat 64 (s.rtime s.cur.tile))) ∧
        exec (.rdcyc o) s = completes o (.g [] [o.d.toNat]) s (s.wg o.d.toNat s.myCore.cyc)) ∧
      (s.mayRun (.g [a] []) →
        (beyond → exec (.sleep o) s = completes o (.g [a] []) s s) ∧
        (¬beyond → exec (.sleep o) s = waits s (s.consume s.cur (.g [a] [])) (.sleep (if a = 0 then none else some deadline)))))

/-- R89, R178 to R184: MFS reads the register of its number: the trap registers, the class and the cap, the budget, the key, the counters, the
flags and the modes, the time, the windows. At user privilege those below 0x010 trap PRIVILEGE, whatever the destination comes to. MTS
writes the writable fields of the register of its number, and nothing else. A register with no field that the privilege may write traps
PRIVILEGE, whatever the source comes to. -/
def Obligations.SystemRegistersAreReadAndWritten : Prop :=
  (∀ (o : Opnd) (s : State), s.mayRun .none →
      let n := o.imm.toNat
      let k := s.me
      let c := s.myCore
      let reads (m : Nat) (v : Word) : Prop := n = m → (0x10 ≤ m ∨ k.trap.ts.priv = true) → s.mayRun (.g [] [o.d.toNat]) →
        exec (.mfs o) s = completes o (.g [] [o.d.toNat]) s (s.wg o.d.toNat v)
      (n < 0x10 → k.trap.ts.priv = false → exec (.mfs o) s = traps o s .privilege (Instr.mfs o).info) ∧
      reads 0 (k.trap.cause.setWidth 64) ∧ reads 1 (k.trap.epc.setWidth 64) ∧ reads 2 k.trap.einfo ∧
      (∃ v, reads 3 v ∧ v.getLsbD 0 = k.trap.ts.priv ∧ v.getLsbD 1 = k.trap.ts.ppriv ∧ v.getLsbD 2 = k.trap.ts.te ∧
        v.getLsbD 3 = k.trap.ts.intrap ∧ v.extractLsb' 4 2 = k.trap.ts.pclass ∧ v.getLsbD 6 = k.trap.ts.skip ∧ v.getLsbD 7 = k.trap.ts.nr ∧
        v.extractLsb' 8 3 = k.trap.ts.len ∧ v.getLsbD 11 = k.trap.ts.notice ∧ v.getLsbD 12 = k.trap.ts.alloc ∧ v.getLsbD 15 = k.trap.ts.pd) ∧
      reads 4 (c.tvec.setWidth 64) ∧ (∀ i, i < 4 → reads (5 + i) (k.trap.ksave.get 0 i)) ∧ reads 9 c.ktimer ∧ reads 10 c.npend ∧
      (∃ v, reads 0x10 v ∧ v.extractLsb' 0 2 = k.sys.cls ∧ v.extractLsb' 2 2 = k.sys.cap) ∧
      reads 0x11 (k.sys.hbudget.setWidth 64) ∧ reads 0x12 (k.sys.bkey.setWidth 64) ∧ reads 0x13 k.sys.ilock ∧ reads 0x14 k.sys.fswitch ∧
      reads 0x18 (k.sys.fflags.setWidth 64) ∧ reads 0x19 (k.sys.fmode.setWidth 64) ∧ reads 0x1A k.sys.mstat ∧
      (∃ v, reads 0x20 v ∧ (c.evq.ready.length < 64 →
        v.extractLsb' 0 6 = BitVec.ofNat 6 c.evq.ready.length ∧ v.extractLsb' 6 6 = BitVec.ofNat 6 c.evq.held)) ∧
       reads 0x21 (BitVec.ofNat 64 (s.rtime s.cur.tile)) ∧ reads 0x22 c.cyc ∧ reads 0x23 s.myTile.freq ∧
      reads 0x24 s.myTile.clk.ftrace ∧
      reads 0x25 (BitVec.ofNat 64 (s.cur.core + 4 * s.cur.ctx + 64 * (roleTag s.cur.tile).toNat)) ∧
      (∀ i, i < 16 → reads (0x40 + i) (c.wdesc.get 0 i)) ∧
      (∀ h, h < 8 → reads (0x80 + h)
        (BitVec.ofNat 64 ((s.channel s.cur.tile h).done.toNat + 2 ^ 32 * (s.channel s.cur.tile h).next.toNat))) ∧
      ∀ h i, h < 8 → i < 16 → reads (0x100 + 16 * h + i) ((s.channel s.cur.tile h).shadow.get 0 i)) ∧
  (∀ (o : Opnd) (s : State), s.mayRun .none →
      let n := o.imm.toNat
      let u := s.cur
      let v := s.rg o.d.toNat
      let does (m : Nat) (s1 : State) : Prop := n = m → s.mayRun (.g [o.d.toNat] []) → exec (.mts o) s = completes o (.g [o.d.toNat] []) s s1
      let trap (m : Nat) (f : TrapRegs → TrapRegs) : Prop := does m (s.modMe fun k => { k with trap := f k.trap })
      let sys (m : Nat) (f : CtxRegs → CtxRegs) : Prop := does m (s.modMe fun k => { k with sys := f k.sys })
      let core (m : Nat) (f : Core → Core) : Prop := does m (s.modMyCore f)
      (sys 0x18 fun r => { r with fflags := v.setWidth 7 }) ∧
      (sys 0x19 fun r => { r with fmode := if 1 ≤ v.toNat % 8 ∧ v.toNat % 8 ≤ 4 then v.setWidth 3 else r.fmode }) ∧
      (sys 0x1A fun r => { r with mstat := v &&& 0x77 }) ∧
      (∀ i, i < 16 → core (0x40 + i) fun k => { k with wdesc := k.wdesc.set 0 i v }) ∧
      (s.me.trap.ts.priv = true →
        (trap 0 fun r => { r with cause := v.setWidth 6 }) ∧ (trap 1 fun r => { r with epc := v.setWidth 17 }) ∧
        (trap 2 fun r => { r with einfo := v }) ∧
        (trap 3 fun r => { r with ts := {
          priv := r.ts.priv, ppriv := v.getLsbD 1, te := v.getLsbD 2, intrap := v.getLsbD 3, pclass := v.extractLsb' 4 2, skip := v.getLsbD 6
          nr := v.getLsbD 7, len := v.extractLsb' 8 3, notice := v.getLsbD 11, alloc := v.getLsbD 12, pd := v.getLsbD 15 } }) ∧
        (core 4 fun k => { k with tvec := (v &&& ~~~1).setWidth 17 }) ∧
        (∀ i, i < 4 → trap (5 + i) fun r => { r with ksave := r.ksave.set 0 i v }) ∧
        (core 9 fun k => { k with ktimer := v }) ∧
        (∃ f : Core → Core, core 10 f ∧ ∀ k, (f k).npend = k.npend &&& ~~~(v &&& 0x800000000007FFFF) ∧
          ∀ b, (f k).ninfo.get 0 b = if (v &&& 0x800000000007FFFF).getLsbD b then 0 else k.ninfo.get 0 b) ∧
        (sys 0x10 fun r => { r with cls := v.setWidth 2, cap := v.extractLsb' 2 2 }) ∧
        (sys 0x11 fun r => { r with hbudget := v.setWidth 32 }) ∧ (sys 0x12 fun r => { r with bkey := v.setWidth 56 }) ∧
        (sys 0x13 fun r => { r with ilock := v }) ∧ (sys 0x14 fun r => { r with fswitch := v }) ∧
        does 0x23 (s.writeFreq u.tile v)) ∧
      (s.me.trap.ts.priv = false → n < 0x18 ∨ (0x20 ≤ n ∧ n < 0x40) ∨ 0x80 ≤ n →
        exec (.mts o) s = traps o s .privilege (Instr.mts o).info) ∧
      (s.me.trap.ts.priv = true → (0x20 ≤ n ∧ n < 0x40 ∧ n ≠ 0x23) ∨ 0x80 ≤ n →
        exec (.mts o) s = traps o s .privilege (Instr.mts o).info))

/-- R186, R187, R194: What taking a trap or a notice does to a context with no results in flight: the pc goes to `%tvec`, `%epc`, `%cause`,
`%einfo` and the entry's fields of `%tstate` are written, the privilege and the class are saved, the context is at supervisor privilege with
traps off, and the registers and the loop stack are kept. An event entry that its instruction held is free again. TRAP and BREAK trap, with
their number in `%einfo`, so that ERET goes past them. -/
def Obligations.TrapsAndBreakpointsEnterTheHandler : Prop :=
  (∀ (s : State) (u : Cur) (cause : Cause) (info : Word) (len : Nat), (s.ctx u).status = .running → (s.ctx u).flights = [] →
      (s.ctx u).trap.ts.te = true → (s.tile u.tile).gangOf u.core u.ctx = none →
      let k := s.ctx u
      let t := s.raise u cause info len
      let r := t.ctx u
      r.trap.cause = BitVec.ofNat 6 cause.code ∧ r.trap.einfo = info ∧ r.trap.epc = k.pc.setWidth 17 ∧
      r.trap.ts = {
        priv := true, ppriv := k.trap.ts.priv, te := false, intrap := true, pclass := k.sys.cls
        skip := cause == .trapInsn || cause == .break, nr := cause == .localEcc || cause == .dramPoison
        len := BitVec.ofNat 3 len, notice := false, alloc := false, pd := false } ∧
      r.trap.ksave = k.trap.ksave ∧ r.pc = (s.core u.tile u.core).tvec.setWidth 64 ∧ r.regs = k.regs ∧ r.sys = k.sys ∧ r.loops = k.loops ∧
      r.words = 0 ∧ r.status = .running ∧ keepsMemory s t ∧ (k.kept = none → keepsEngines s t) ∧
      (∀ v, k.kept = some (v, true) →
        (t.core u.tile u.core).evq = { (s.core u.tile u.core).evq with held := (s.core u.tile u.core).evq.held - 1 }) ∧
      ∀ v, v ≠ u → t.ctx v = s.ctx v) ∧
  (∀ (o : Opnd) (s : State), s.mayRun .none → s.me.status = .running → s.me.flights = [] → s.me.trap.ts.te = true →
      let enters (i : Instr) (code : BitVec 6) : Prop := ∃ t, exec i s = .next t ∧
        (t.ctx s.cur).trap.cause = code ∧ (t.ctx s.cur).trap.einfo = BitVec.ofNat 64 (o.x.toNat % 256) ∧
        (t.ctx s.cur).trap.epc = s.me.pc.setWidth 17 ∧ (t.ctx s.cur).trap.ts.skip = true ∧ (t.ctx s.cur).trap.ts.len = BitVec.ofNat 3 o.len ∧
        (t.ctx s.cur).pc = s.myCore.tvec.setWidth 64
      enters (.trap o) 0x04 ∧ enters (.brk o) 0x05)

/-- R138, R188: A trap waits for the results in flight; with traps off it is a double trap: the context waits with its registers as they are,
and a MACHINE_CHECK with the cause, the core and the context goes to the next core. -/
def Obligations.TrapsWaitForResultsAndDoubleTrapsHold : Prop :=
  ∀ (s : State) (u : Cur) (cause : Cause) (info : Word) (len : Nat), (s.ctx u).status = .running →
    (s.tile u.tile).gangOf u.core u.ctx = none →
    let k := s.ctx u
    let t := s.raise u cause info len
    (k.flights ≠ [] → t.ctx u = { k with
      pend := some ⟨cause, info, k.pc, len, cause == .trapInsn || cause == .break, cause == .localEcc || cause == .dramPoison⟩
      granted := false, kept := none, status := .waiting .results }) ∧
    (k.flights = [] → k.trap.ts.te = false → u.core < 4 →
      t.ctx u = { k with status := .waiting .doubleTrap, pend := none, kept := none } ∧
      (t.core u.tile ((u.core + 1) % 4)).npend.getLsbD 12 = true ∧
      ((s.core u.tile ((u.core + 1) % 4)).npend.getLsbD 12 = false →
        (t.core u.tile ((u.core + 1) % 4)).ninfo.get 0 12 = BitVec.ofNat 64 (cause.code + 64 * u.core + 256 * u.ctx)))

/-- R134, R152, R189, R246: ERET at user privilege traps PRIVILEGE. At supervisor privilege it frees a context whose entry is not resumable or
that was allocated for a notice; else the pc goes to `%epc`, or past its instruction, and the privilege, the class, te, intrap, skip and pd
are restored. ENDH, and WDONE, which is ENDH outside an item handler, park while results are in flight; a handler of neither a firing nor an
item that holds no stream unit ends: its context is free, its loop stack discarded, and every byte of memory stays. -/
def Obligations.EretReturnsAndEndhFrees : Prop :=
  (∀ (o : Opnd) (s : State), s.mayRun .none →
      let k := s.me
      let ts := k.trap.ts
      let epc : Word := k.trap.epc.setWidth 64
      (ts.priv = false → exec (.eret o) s = traps o s .privilege (Instr.eret o).info) ∧
      (ts.priv = true → ts.nr = false → (ts.notice = false ∨ ts.alloc = false) → ∃ t, exec (.eret o) s = .next t ∧
        (t.ctx s.cur).pc = (if ts.skip then epc + BitVec.ofNat 64 (2 * ts.len.toNat) else epc) ∧
        (t.ctx s.cur).trap.ts = { ts with priv := ts.ppriv, te := true, intrap := false, skip := false, pd := false } ∧
        (t.ctx s.cur).sys = { k.sys with cls := ts.pclass } ∧ (t.ctx s.cur).regs = k.regs ∧ (t.ctx s.cur).loops = k.loops ∧
        (t.ctx s.cur).words = 0 ∧ keepsMemory s t ∧ keepsEngines s t ∧ keepsOutside s t) ∧
      (ts.priv = true → (ts.nr = true ∨ ts.notice = true ∧ ts.alloc = true) → s.holdsCoord s.cur = false → ∃ t,
        exec (.eret o) s = .next t ∧ (t.ctx s.cur).status = .free ∧ (t.ctx s.cur).loops = [] ∧ (t.ctx s.cur).flights = [])) ∧
  (∀ (o : Opnd) (s : State), (s.tile s.cur.tile).gangOf s.cur.core s.cur.ctx = none →
      let ends (i : Instr) : Prop :=
        (s.me.flights ≠ [] → ∃ t, exec i s = .next t ∧ (t.ctx s.cur).status = .parked ∧ (t.ctx s.cur).pc = s.me.pc ∧
          (t.ctx s.cur).flights = s.me.flights) ∧
        (s.me.flights = [] → s.unitsOf s.cur = [] →
          (s.me.handler = .none ∨ ∃ a b c d e f, s.me.handler = .mail a b c d e f) →
          ∃ t, exec i s = .next t ∧ (t.ctx s.cur).status = .free ∧ (t.ctx s.cur).loops = [] ∧ (t.ctx s.cur).handler = .none ∧ keepsMemory s t)
      ends (.endh o) ∧ ends (.wdone o))

/-- R171 to R173: GANG.2 and GANG.4 wait until a context of every core that they need has executed the same form; the last forms the gang, led
by the lowest core, and its members go on after the leader's instruction. A core that a context of the other form awaits makes it trap
GANG_BREAK. UNGANG dissolves the gang, and outside one only advances. A gang executes one instruction of its leader's for every member, each
on its own registers: after a MOVI whose destination no member has in flight or bound to a stream, every member's register holds the
immediate and every member is where the leader is. -/
def Obligations.GangsFormExecuteTogetherAndDissolve : Prop :=
  ((∀ (o : Opnd) (s : State) (four : Bool), s.mayRun .none → s.me.status = .running →
      let u := s.cur
      let i : Instr := if four then .gang4 o else .gang2 o
      let need := if four then [0, 1, 2, 3] else [min u.core (u.core ^^^ 1), max u.core (u.core ^^^ 1)]
      let waiter (c : Nat) : Option (Nat × Bool) := s.gangWaiter u.tile c
      u.core < 4 → (s.tile u.tile).inGang u.core = false → waiter u.core = none →
      ((∀ c ∈ need, ∀ x f, waiter c = some (x, f) → f = four) → (∃ c ∈ need, c ≠ u.core ∧ waiter c = none) →
        exec i s = waits s s (.gang four)) ∧
      ((∀ c ∈ need, c ≠ u.core → ∃ x, waiter c = some (x, four)) →
        ∃ t g, exec i s = .next t ∧ g ∈ (t.tile u.tile).eng.gangs ∧ g.members.map Prod.fst = need ∧ (u.core, u.ctx) ∈ g.members ∧
          ∀ m ∈ g.members, (t.ctx ⟨u.tile, m.1, m.2⟩).waits = none ∧
            ∀ l, g.members.head? = some l → (t.ctx ⟨u.tile, m.1, m.2⟩).pc = (t.ctx ⟨u.tile, l.1, l.2⟩).pc)) ∧
    (∀ (o : Opnd) (s : State) (c x : Nat), s.mayRun .none → c ≠ s.cur.core → c = s.cur.core ^^^ 1 →
      (s.tile s.cur.tile).inGang s.cur.core = false → s.gangWaiter s.cur.tile s.cur.core = none → s.cur.core < 4 →
      s.gangWaiter s.cur.tile c = some (x, true) → exec (.gang2 o) s = traps o s .gangBreak (BitVec.ofNat 64 (c + 768))) ∧
    ∀ (o : Opnd) (s : State),
      (s.mayRun .none → exec (.ungang o) s = completes o .none s s) ∧
      (∀ g, (s.tile s.cur.tile).gangOf s.cur.core s.cur.ctx = some g → ∃ t, exec (.ungang o) s = .next t ∧
        (t.tile s.cur.tile).eng.gangs = (s.tile s.cur.tile).eng.gangs.filter fun h => h != g)) ∧
  (∀ (o : Opnd) (s : State) (g : Gang) (rest : List (Nat × Nat)), g ∈ (s.tile s.cur.tile).eng.gangs →
      (s.tile s.cur.tile).gangOf s.cur.core s.cur.ctx = some g → g.members = (s.cur.core, s.cur.ctx) :: rest →
      (g.members.map Prod.fst).Nodup → o.d ≠ 0 → o.mark = false →
      (∀ m ∈ g.members, (s.ctx ⟨s.cur.tile, m.1, m.2⟩).ahead = false ∧
        (s.ctx ⟨s.cur.tile, m.1, m.2⟩).blocked (.g [] [o.d.toNat]) = false ∧
        s.gate ⟨s.cur.tile, m.1, m.2⟩ (.g [] [o.d.toNat]) = none ∧
        (s.core s.cur.tile m.1).binding m.2 false o.d.toNat = none) →
      ∃ t, exec (.movi o) s = .next t ∧ ∀ m ∈ g.members,
        (t.ctx ⟨s.cur.tile, m.1, m.2⟩).g o.d.toNat = BitVec.ofInt 64 o.imm ∧
        (t.ctx ⟨s.cur.tile, m.1, m.2⟩).pc = (t.ctx s.cur).pc ∧ (t.ctx ⟨s.cur.tile, m.1, m.2⟩).loops = (t.ctx s.cur).loops)

/-! ## The vector unit -/

/-- R270 to R273: The lane-by-lane arithmetic. Float lanes are rounded once by the instruction's mode, integer lanes wrap. The fused
multiply-adds, with one rounding, and the functions of one operand. -/
def Obligations.VectorArithmeticAndFusedGiveTheirLanes : Prop :=
  (∀ (o : Opnd) (s : State),
      let fmt := o.mf 9 6
      let w := laneBits fmt
      let mode := roundMode (o.mf 2 0) s.me.sys.fmode
      let x (i : Nat) : Nat := lane w (s.rv (if o.r then o.a.toNat else o.d.toNat)).toNat i
      let y (i : Nat) : Nat := lane w (s.rv (if o.r then o.b.toNat else o.a.toNat)).toNat i
      let a (i : Nat) : Nat := lane w (s.rv o.a.toNat).toNat i
      let num (v : Nat) : Sys2Proof.Machine.Num := decodeNum fmt 0 v
      let val (v : Nat) : Int := if fmtSigned fmt ∧ 2 ^ w ≤ 2 * v then (v : Int) - 2 ^ w else v
      let float := fmt ≤ 2
      (s.mayRun (useV2 o) →
        givesLanes (.vadd o) o (useV2 o) s w (fun i => if float then fAddNum fmt mode (num (x i)) (num (y i)) else (x i + y i, 0)) ∧
        givesLanes (.vsub o) o (useV2 o) s w (fun i =>
          if float then fAddNum fmt mode (num (x i)) (num (y i)).negate else (x i + 2 ^ w - y i, 0)) ∧
        givesLanes (.vmul o) o (useV2 o) s w (fun i => if float then fMulNum fmt mode (num (x i)) (num (y i)) else (x i * y i, 0)) ∧
        givesLanes (.vdiv o) o (useV2 o) s w (fun i => fDivNum fmt mode (num (x i)) (num (y i))) ∧
        givesLanes (.vmin o) o (useV2 o) s w (fun i =>
          if float then fMinMax fmt false (x i) (y i) else (if val (x i) ≤ val (y i) then x i else y i, 0)) ∧
        givesLanes (.vmax o) o (useV2 o) s w (fun i =>
          if float then fMinMax fmt true (x i) (y i) else (if val (y i) ≤ val (x i) then x i else y i, 0))) ∧
      (s.mayRun (useV1 o) →
        givesLanes (.vabs o) o (useV1 o) s w (fun i => if float then signLane fmt (fun _ => false) (a i) else ((val (a i)).natAbs, 0)) ∧
        givesLanes (.vneg o) o (useV1 o) s w (fun i => if float then signLane fmt (fun n => !n) (a i) else (2 ^ w - a i, 0)))) ∧
  (∀ (o : Opnd) (s : State),
      let fmt := o.mf 9 6
      let w := laneBits fmt
      let mode := roundMode (o.mf 2 0) s.me.sys.fmode
      let num (r : BitVec 6) (i : Nat) : Sys2Proof.Machine.Num := decodeNum fmt 0 (lane w (s.rv r.toNat).toNat i)
      (s.mayRun (useV3 o) →
        givesLanes (.vfma o) o (useV3 o) s w (fun i => fFmaNum fmt mode false false (num o.a i) (num o.b i) (num o.d i)) ∧
        givesLanes (.vfms o) o (useV3 o) s w (fun i => fFmaNum fmt mode false true (num o.a i) (num o.b i) (num o.d i)) ∧
        givesLanes (.vfnma o) o (useV3 o) s w (fun i => fFmaNum fmt mode true true (num o.a i) (num o.b i) (num o.d i)) ∧
        givesLanes (.vfnms o) o (useV3 o) s w (fun i => fFmaNum fmt mode true false (num o.a i) (num o.b i) (num o.d i))) ∧
      (s.mayRun (useV1 o) →
        givesLanes (.vexp2 o) o (useV1 o) s w (fun i => fExp2Num fmt (num o.a i)) ∧
        givesLanes (.vlog2 o) o (useV1 o) s w (fun i => fLog2Num fmt (num o.a i)) ∧
        givesLanes (.vrcp o) o (useV1 o) s w (fun i => fDivNum fmt mode (.fin false 1 0) (num o.a i)) ∧
        givesLanes (.vrsqrt o) o (useV1 o) s w (fun i => fRsqrtNum fmt mode (num o.a i)) ∧
        givesLanes (.vsin o) o (useV1 o) s w (fun i => fWaveNum fmt false (num o.a i)) ∧
        givesLanes (.vcos o) o (useV1 o) s w (fun i => fWaveNum fmt true (num o.a i)) ∧
        givesLanes (.vtanh o) o (useV1 o) s w (fun i => fTanhNum fmt (num o.a i)) ∧
        givesLanes (.vsqrt o) o (useV1 o) s w (fun i => fSqrtNum fmt mode (num o.a i))))

/-- R274 to R276, R278, R283: The bitwise, shift and saturating operations, moves and permutations. A lane index beyond the register, and a
VPERM index so, traps VECTOR_SHAPE. A compare sets all bits of the active lanes for which its relation holds, no relation but inequality
holding of a NaN; the mask operations act on 128 bits; KPOPC, KFIRST and KSET count bits. -/
def Obligations.VectorMovesAndMasksGiveTheirLanes : Prop :=
  (∀ (o : Opnd) (s : State),
      let fmt := o.mf 9 6
      let w := laneBits fmt
      let n := 1024 / w
      let x (i : Nat) : Nat := lane w (s.rv (if o.r then o.a.toNat else o.d.toNat)).toNat i
      let y (i : Nat) : Nat := lane w (s.rv (if o.r then o.b.toNat else o.a.toNat)).toNat i
      let a (i : Nat) : Nat := lane w (s.rv o.a.toNat).toNat i
      let b (i : Nat) : Nat := lane w (s.rv o.b.toNat).toNat i
      let top (v : Nat) : Int := if 2 ^ w ≤ 2 * v then (v : Int) - 2 ^ w else v
      let val (v : Nat) : Int := if fmtSigned fmt then top v else v
      let lo : Int := if fmtSigned fmt then -2 ^ (w - 1) else 0
      let hi : Int := if fmtSigned fmt then 2 ^ (w - 1) - 1 else 2 ^ w - 1
      let wrap (v : Int) : Nat := (v % 2 ^ w).toNat
      let sat (v : Int) : Nat × Flagset := (wrap (max lo (min hi v)), if lo ≤ v ∧ v ≤ hi then 0 else flSat)
      let index := (s.rg o.b.toNat).toNat
      let below (i : Nat) : Nat := ((List.range i).filter fun j => s.lives o w j).length
      (s.mayRun (useV2 o) →
        givesLanes (.vand o) o (useV2 o) s w (fun i => (x i &&& y i, 0)) ∧ givesLanes (.vor o) o (useV2 o) s w (fun i => (x i ||| y i, 0)) ∧
        givesLanes (.vxor o) o (useV2 o) s w (fun i => (x i ^^^ y i, 0)) ∧
        givesLanes (.vshl o) o (useV2 o) s w (fun i => (x i * 2 ^ (y i % w), 0)) ∧
        givesLanes (.vshr o) o (useV2 o) s w (fun i => (x i / 2 ^ (y i % w), 0)) ∧
        givesLanes (.vsar o) o (useV2 o) s w (fun i => (wrap (top (x i) / 2 ^ (y i % w)), 0)) ∧
        givesLanes (.vadds o) o (useV2 o) s w (fun i => sat (val (x i) + val (y i))) ∧
        givesLanes (.vsubs o) o (useV2 o) s w (fun i => sat (val (x i) - val (y i)))) ∧
      (s.mayRun (useV1 o) → givesLanes (.vmov o) o (useV1 o) s w (fun i => (a i, 0)) ∧
        givesLanes (.vexpand o) o (useV1 o) s w (fun i => (a (below i), 0)) ∧
        ∃ v, exec (.vcompress o) s = completes o (useV1 o) s (s.lv o.d.toNat (.vec (BitVec.ofNat 1024 v)) o.len) ∧ v < 2 ^ 1024 ∧
          ∀ i, i < n → (∀ j, j < n → s.lives o w j = true → below j = i → lane w v i = a j) ∧ (below n ≤ i → lane w v i = 0)) ∧
      (s.mayRun (useV o [o.a.toNat, o.b.toNat] [o.d.toNat]) →
        (∃ v, exec (.vsel o) s = completes o (useV o [o.a.toNat, o.b.toNat] [o.d.toNat]) s (s.lv o.d.toNat (.vec (BitVec.ofNat 1024 v)) o.len) ∧
          ∀ i, i < n → lane w v i = if s.lives o w i then a i else b i) ∧
        ((∀ i, i < n → s.lives o w i = true → b i < n) →
          givesLanes (.vperm o) o (useV o [o.a.toNat, o.b.toNat] [o.d.toNat]) s w (fun i => (a (b i), 0))) ∧
        ((∃ i, i < n ∧ s.lives o w i = true ∧ n ≤ b i) → exec (.vperm o) s = traps o s .vectorShape (Instr.vperm o).info)) ∧
      (s.mayRun ⟨[o.a.toNat], [], [], [o.d.toNat], useMask o, []⟩ →
        givesLanes (.vbcast o) o ⟨[o.a.toNat], [], [], [o.d.toNat], useMask o, []⟩ s w (fun _ => ((s.rg o.a.toNat).toNat, 0))) ∧
      (s.mayRun ⟨[o.b.toNat], [], [o.a.toNat], [o.d.toNat], useMask o, []⟩ →
        givesLanes (.vrot o) o ⟨[o.b.toNat], [], [o.a.toNat], [o.d.toNat], useMask o, []⟩ s w
          (fun i => (a (((i : Int) + (s.rg o.b.toNat).toInt) % (n : Int)).toNat, 0))) ∧
      (s.mayRun ⟨[o.b.toNat], [o.d.toNat], [o.a.toNat], [], [], []⟩ →
        (n ≤ index → exec (.vextr o) s = traps o s .vectorShape (Instr.vextr o).info) ∧
        (index < n → exec (.vextr o) s = completes o ⟨[o.b.toNat], [o.d.toNat], [o.a.toNat], [], [], []⟩ s
          (s.lg o.d.toNat (.word (BitVec.ofInt 64 (val (a index)))) o.len)))) ∧
  (∀ (o : Opnd) (s : State),
      let fmt := o.mf 9 6
      let w := laneBits fmt
      let x (i : Nat) : Nat := lane w (s.rv o.a.toNat).toNat i
      let y (i : Nat) : Nat := lane w (s.rv o.b.toNat).toNat i
      let val (v : Nat) : Int := if fmtSigned fmt ∧ 2 ^ w ≤ 2 * v then (v : Int) - 2 ^ w else v
      let num (v : Nat) : Sys2Proof.Machine.Num := decodeNum fmt 0 v
      let nan (i : Nat) : Bool := (num (x i)).isNan || (num (y i)).isNan
      let holds (p : Ordering → Bool) (i : Nat) : Bool :=
        if fmt ≤ 2 then !nan i && p (cmpNum (num (x i)) (num (y i))) else p (compare (val (x i)) (val (y i)))
      let signalling (i : Nat) : Nat × Flagset := (0, if fmt ≤ 2 ∧ (num (x i) = .nan true ∨ num (y i) = .nan true) then flNv else 0)
      let k1 := s.me.k (if o.r then o.a.toNat else o.d.toNat)
      let k2 := s.me.k (if o.r then o.b.toNat else o.a.toNat)
      let ka := s.me.k o.a.toNat
      let masks (i : Instr) (use : Use) (v : KWord) : Prop := s.mayRun use → exec i s = completes o use s (s.launch (.k o.d.toNat) (.mask v) o.len)
      let two := useK [formX o, formY o] o
      let counts (i : Instr) (n : Nat) : Prop := exec i s = completes o (useKg o) s (s.lg o.d.toNat (.word (BitVec.ofNat 64 n)) o.len)
      (8 ≤ w → s.mayRun (useVcmp o) → ∃ fl, raisedBy s o w signalling fl ∧
        givesMask (.vcmpeq o) o (useVcmp o) s w (holds (· == .eq)) fl ∧ givesMask (.vcmplt o) o (useVcmp o) s w (holds (· == .lt)) fl ∧
        givesMask (.vcmple o) o (useVcmp o) s w (holds (· != .gt)) fl ∧
        givesMask (.vcmpne o) o (useVcmp o) s w (fun i => !(holds (· == .eq) i)) fl) ∧
      masks (.kand o) two (k1 &&& k2) ∧ masks (.kor o) two (k1 ||| k2) ∧ masks (.kxor o) two (k1 ^^^ k2) ∧
      masks (.knot o) (useK [o.a.toNat] o) (~~~ka) ∧ masks (.kmov o) (useK [o.a.toNat] o) ka ∧
      (s.mayRun ⟨[o.a.toNat], [], [], [], [], [o.d.toNat]⟩ → ∃ v : KWord,
        exec (.kset o) s = completes o ⟨[o.a.toNat], [], [], [], [], [o.d.toNat]⟩ s (s.launch (.k o.d.toNat) (.mask v) o.len) ∧
        ∀ j, j < 128 → v.getLsbD j = decide (j < (s.rg o.a.toNat).toNat)) ∧
      (s.mayRun (useKg o) → counts (.kpopc o) ((List.range 128).map fun i => (ka.getLsbD i).toNat).sum ∧
        ∃ n, counts (.kfirst o) n ∧ n ≤ 128 ∧ (∀ i, i < n → ka.getLsbD i = false) ∧ (n < 128 → ka.getLsbD n = true)))

/-- R96, R97, R277, R279, R288: VCVT converts the lanes that both formats hold; the reductions write lane 0 and zeros, and VSCAN every prefix
sum. Integer sums are exact and saturated once, float sums follow the pairwise tree or go from lane 0 upwards. The dot products: each 32-bit
part is the exact sum of its products and of the lane it adds to, saturated to 32 bits once, or for VDOT2 rounded once to f32. -/
def Obligations.ConversionsReductionsAndDotProducts : Prop :=
  (∀ (o : Opnd) (s : State), s.mayRun (useV1 o) →
      let fmt := o.mf 9 6
      let w := laneBits fmt
      let n := 1024 / w
      let mode := roundMode (o.mf 2 0) s.me.sys.fmode
      let a (i : Nat) : Nat := lane w (s.rv o.a.toNat).toNat i
      let val (v : Nat) : Int := if fmtSigned fmt ∧ 2 ^ w ≤ 2 * v then (v : Int) - 2 ^ w else v
      let lo : Int := if fmtSigned fmt then -2 ^ (w - 1) else 0
      let hi : Int := if fmtSigned fmt then 2 ^ (w - 1) - 1 else 2 ^ w - 1
      let sat (v : Int) : Nat := (max lo (min hi v) % 2 ^ w).toNat
      let sum (k : Nat) : Int := ((List.range k).map fun i => if s.lives o w i then val (a i) else 0).sum
      let gives (i : Instr) (v : Nat) (fl : Flagset) : Prop :=
        exec i s = completes o (useV1 o) s ((s.addFlags fl).lv o.d.toNat (.vec (BitVec.ofNat 1024 v)) o.len)
      let entering := (List.range n).map fun i => if s.lives o w i then a i else zeroBits fmt true
      let wd := laneBits (o.fx.toNat % 16)
      (∃ v fl, gives (.vcvt o) v fl ∧ ∀ i, (i < 1024 / max w wd → lane wd v i = if s.lives o wd i then
            (convert fmt (o.fx.toNat % 16) mode 0 0 .vcvt (a i)).1 % 2 ^ wd
          else if (s.myCore.binding s.cur.ctx true o.d.toNat).isSome then 0 else lane wd (s.me.v o.d.toNat).toNat i) ∧
        (1024 / max w wd ≤ i → lane wd v i = 0)) ∧
      (fmt ≤ 2 →
        gives (.vredsum o) (treeSum (addLane fmt mode) n.log2 (entering.map fun x => (x, 0))).1
          (treeSum (addLane fmt mode) n.log2 (entering.map fun x => (x, 0))).2 ∧
        ∃ v fl, gives (.vscan o) v fl ∧ lane w v 0 = (firstSum fmt (entering.getD 0 0)).1 % 2 ^ w ∧
          ∀ i, i + 1 < n → lane w v (i + 1) = (addLane fmt mode (lane w v i) (entering.getD (i + 1) 0)).1 % 2 ^ w) ∧
      (intShape fmt ≠ none →
        (gives (.vredsum o) (sat (sum n)) (if lo ≤ sum n ∧ sum n ≤ hi then 0 else flSat)) ∧
        (∃ v fl, gives (.vscan o) v fl ∧ ∀ i, i < n → lane w v i = sat (sum (i + 1))) ∧
        ∃ v1 v2, gives (.vredmin o) v1 0 ∧ gives (.vredmax o) v2 0 ∧ v1 < 2 ^ w ∧ v2 < 2 ^ w ∧
          (∀ i, i < n → s.lives o w i = true → val v1 ≤ val (a i) ∧ val (a i) ≤ val v2) ∧
          ((∃ i, i < n ∧ s.lives o w i = true ∧ v1 = a i) ∨ (∀ i, i < n → s.lives o w i = false) ∧ val v1 = hi) ∧
          ((∃ i, i < n ∧ s.lives o w i = true ∧ v2 = a i) ∨ (∀ i, i < n → s.lives o w i = false) ∧ val v2 = lo)) ∧
      (fmt ≤ 2 → ∃ v1 v2 fl, gives (.vredmin o) v1 fl ∧ gives (.vredmax o) v2 fl ∧
        ∀ i, i < n → s.lives o w i = true → (decodeNum fmt 0 (a i)).isNan = false →
          ∃ i1 i2, i1 < n ∧ i2 < n ∧ s.lives o w i1 = true ∧ s.lives o w i2 = true ∧ v1 = a i1 ∧ v2 = a i2)) ∧
  (∀ (o : Opnd) (s : State), s.mayRun (useV3 o) →
      let a (w i : Nat) : Nat := lane w (s.rv o.a.toNat).toNat i
      let b (w i : Nat) : Nat := lane w (s.rv o.b.toNat).toNat i
      let d (i : Nat) : Nat := lane 32 (s.rv o.d.toNat).toNat i
      let sgn (w v : Nat) : Int := if 2 ^ w ≤ 2 * v then (v : Int) - 2 ^ w else v
      let re (w v : Nat) : Int := sgn (w / 2) (v % 2 ^ (w / 2))
      let im (w v : Nat) : Int := sgn (w / 2) (v / 2 ^ (w / 2))
      let sat (v : Int) : Nat := (max (-2 ^ 31) (min (2 ^ 31 - 1) v) % 2 ^ 32).toNat
      let beyond (v : Int) : Prop := ¬(-2 ^ 31 ≤ v ∧ v < 2 ^ 31)
      let gives (i : Instr) (part : Nat → Int) : Prop := ∃ v fl,
        exec i s = completes o (useV3 o) s ((s.addFlags fl).lv o.d.toNat (.vec (BitVec.ofNat 1024 v)) o.len) ∧ v < 2 ^ 1024 ∧
        (∀ m, m < 32 → lane 32 v m = sat (part m)) ∧ ((∃ m, m < 32 ∧ beyond (part m)) → fl = flSat) ∧
        ((∀ m, m < 32 → ¬beyond (part m)) → fl = 0)
      let complex (w n m : Nat) : Int := sgn 32 (d m) + ((List.range n).map fun j =>
        let p := a w (n * (m / 2) + j)
        let q := b w (n * (m / 2) + j)
        if m % 2 = 0 then re w p * re w q - im w p * im w q else re w p * im w q + im w p * re w q).sum
      gives (.vdot4 o) (fun m => sgn 32 (d m) + ((List.range 4).map fun j => sgn 8 (a 8 (4 * m + j)) * sgn 8 (b 8 (4 * m + j))).sum) ∧
      gives (.vcdot o) (complex 16 4) ∧ gives (.vcdot4 o) (complex 8 8) ∧
      ∃ v fl, exec (.vdot2 o) s = completes o (useV3 o) s ((s.addFlags fl).lv o.d.toNat (.vec (BitVec.ofNat 1024 v)) o.len) ∧
        ∀ m, m < 32 → lane 32 v m = (dot2 s.me.sys.fmode.toNat (decodeNum 0 0 (d m)) ((List.range 2).map fun j =>
          (decodeNum 1 0 (a 16 (2 * m + j)), decodeNum 1 0 (b 16 (2 * m + j))))).1 % 2 ^ 32)

/-- R280, R282: A vector load or store of whole lanes in T or A reaches byte ga + imm + i × s, or its stride or its index, in every active lane.
It traps for the first cause in the order of R105; with no active lane it does nothing. A store leaves every byte that no active lane names. -/
def Obligations.VectorAccessesReachTheirLanes : Prop :=
  ∀ (o : Opnd) (s : State), o.mf 9 6 ≠ 13 → o.fx.toNat % 8 ≤ 1 →
    let fmt := o.mf 9 6
    let w := laneBits fmt
    let n := 1024 / w
    let size := w / 8
    let sp := spaceOf (o.fx.toNat % 8)
    let base := (s.rg o.a.toNat + BitVec.ofInt 64 o.imm).toNat
    let bare : Use := ⟨[], [], [], [], useMask o, []⟩
    let none_ := ∀ i, i < n → s.lives o w i = false
    let free (use : Use) : Prop := s.mayRun bare ∧ s.me.blocked use = false ∧ s.gate s.cur use = none
    let key := s.me.sys.bkey
    let loads (i : Instr) (use : Use) (off : Nat → Nat) : Prop :=
      let at_ (j : Nat) : Nat := (base + off j) % 2 ^ 64
      let bad (j : Nat) : Option Nat := s.badLocal s.cur.tile s.cur.core sp key (at_ j) size
      let valid := ∀ j, j < n → s.lives o w j = true → at_ j + size ≤ sp.size ∧ at_ j % size = 0 ∧
        s.quoinFault s.cur.tile s.cur.core sp (at_ j) size false = none
      (s.mayRun bare → none_ → exec i s = completes o bare s s) ∧
      (∀ j u, free use → valid → j < n → s.lives o w j = true → bad j = some u → (∀ k, k < j → s.lives o w k = true → bad k = none) →
        exec i s = completes o bare s
          ((s.launch (.v o.d.toNat) (.dataError .localEcc (infoM u sp.code (sizeCode size) false)) o.len).consume s.cur use)) ∧
      (free use → ¬none_ → valid → (∀ j, j < n → s.lives o w j = true → s.badLocal s.cur.tile s.cur.core sp key (at_ j) size = none) →
        ∃ v, exec i s = completes o bare s (((s.addFlags 0).lv o.d.toNat (.vec (BitVec.ofNat 1024 v)) o.len).consume s.cur use) ∧ v < 2 ^ 1024 ∧
          ∀ j, j < n → lane w v j = if s.lives o w j then s.readLocal s.cur.tile s.cur.core sp key (at_ j) size
            else if (s.myCore.binding s.cur.ctx true o.d.toNat).isSome then 0 else lane w (s.me.v o.d.toNat).toNat j)
    let stores (i : Instr) (use : Use) (off : Nat → Nat) : Prop :=
      let at_ (j : Nat) : Nat := (base + off j) % 2 ^ 64
      (s.mayRun bare → none_ → exec i s = completes o bare s s) ∧
      (free use → ¬none_ → (∀ j, j < n → s.lives o w j = true → at_ j + size ≤ sp.size ∧ at_ j % size = 0 ∧
          s.quoinFault s.cur.tile s.cur.core sp (at_ j) size true = none) →
        ∃ s1, exec i s = completes o bare s (s1.consume s.cur use) ∧
          (∀ j, j < n → s.lives o w j = true → (∀ k, k < n → j < k → s.lives o w k = true → at_ k + size ≤ at_ j ∨ at_ j + size ≤ at_ k) →
            s1.readLocal s.cur.tile s.cur.core sp key (at_ j) size = lane w (s.rv o.d.toNat).toNat j) ∧
          (∀ c, (∀ j, j < n → s.lives o w j = true → c < at_ j ∨ at_ j + size ≤ c) →
            s1.readLocal s.cur.tile s.cur.core sp key c 1 = s.readLocal s.cur.tile s.cur.core sp key c 1) ∧
          (∀ y d sp' c, y ≠ s.cur.tile ∨ sp' ≠ sp ∨ (sp ≠ .t ∧ d ≠ s.cur.core) →
            (s1.localMem y d sp').bytes.read c = (s.localMem y d sp').bytes.read c) ∧
          (∀ u, s1.ctx u = s.ctx u) ∧ keepsEngines s s1 ∧ keepsOutside s s1)
    let faults (i : Instr) (use : Use) (off : Nat → Nat) (write : Bool) : Prop :=
      let at_ (j : Nat) : Nat := (base + off j) % 2 ^ 64
      free use → (∀ j, j < n → s.lives o w j = true → sp.size ≤ at_ j ∨ at_ j + size ≤ sp.size) →
        ∀ j, j < n → s.lives o w j = true → sp.size ≤ at_ j → (∀ k, k < j → s.lives o w k = true → at_ k + size ≤ sp.size) →
        exec i s = traps o s .spaceRange (infoM (at_ j) sp.code (sizeCode size) write)
    let plain (i : Nat) : Nat := i * size
    let stride (i : Nat) : Nat := i * (s.rg o.b.toNat).toNat
    let index (i : Nat) : Nat := lane w (s.rv o.b.toNat).toNat i * size
    loads (.vld o) (useVld o [o.a.toNat] []) plain ∧ loads (.vlds o) (useVld o [o.a.toNat, o.b.toNat] []) stride ∧
    loads (.vldg o) (useVld o [o.a.toNat] [o.b.toNat]) index ∧
    stores (.vst o) (useVst o [o.a.toNat] []) plain ∧ stores (.vsts o) (useVst o [o.a.toNat, o.b.toNat] []) stride ∧
    stores (.vstg o) (useVst o [o.a.toNat] [o.b.toNat]) index ∧
    faults (.vlds o) (useVld o [o.a.toNat, o.b.toNat] []) stride false ∧ faults (.vstg o) (useVst o [o.a.toNat] [o.b.toNat]) index true

/-- R284 to R286: VISECT marks the lanes of a whose coordinate b holds too, VUNION writes the coordinates of both, each once and rising, and the
sentinel beyond them. Coordinates that do not rise trap VECTOR_SHAPE. VSPACLR empties the sparse accumulator and sets its format; VSPAACC of
another format traps, one that would need more than 1,024 entries traps SPA_OVERFLOW with the count, and else each active coordinate is
created with its value or takes it in, in lane order; VSPAGET reads entries, 0 where none is held; VSPADRAIN delivers the 32 smallest and
removes them. -/
def Obligations.SparseCoordinatesAndAccumulator : Prop :=
  (∀ (o : Opnd) (s : State),
      let w := laneBits (o.mf 9 6)
      let n := 1024 / w
      let a (i : Nat) : Nat := lane w (s.rv o.a.toNat).toNat i
      let b (i : Nat) : Nat := lane w (s.rv o.b.toNat).toNat i
      let stop := 2 ^ w - 1
      let in_ (x : Nat → Nat) (i : Nat) : Prop := i < n ∧ s.lives o w i = true ∧ x i ≠ stop
      let rises (x : Nat → Nat) : Prop := ∀ i j, i < j → in_ x i → in_ x j → x i < x j
      let useU := useV o [o.a.toNat, o.b.toNat] [o.d.toNat]
      16 ≤ w →
      (¬(rises a ∧ rises b) → (s.mayRun (useVcmp o) → exec (.visect o) s = traps o s .vectorShape (Instr.visect o).info) ∧
        (s.mayRun useU → exec (.vunion o) s = traps o s .vectorShape (Instr.vunion o).info)) ∧
      (rises a → rises b →
        (s.mayRun (useVcmp o) → ∃ v : KWord, exec (.visect o) s = completes o (useVcmp o) s (s.launch (.k o.d.toNat) (.mask v) o.len) ∧
          ∀ i, i < n → ∀ j, j < w / 8 → (v.getLsbD (i * (w / 8) + j) = true ↔ in_ a i ∧ ∃ m, in_ b m ∧ a i = b m)) ∧
        (s.mayRun useU → ∃ v, exec (.vunion o) s = completes o useU s (s.lv o.d.toNat (.vec (BitVec.ofNat 1024 v)) o.len) ∧ v < 2 ^ 1024 ∧
          (∀ i j, i < j → j < n → lane w v j = stop ∨ lane w v i < lane w v j) ∧
          (∀ i, i < n → lane w v i = stop ∨ (∃ m, in_ a m ∧ lane w v i = a m) ∨ ∃ m, in_ b m ∧ lane w v i = b m) ∧
          ∀ c, ((∃ m, in_ a m ∧ c = a m) ∨ ∃ m, in_ b m ∧ c = b m) → (∃ i, i < n ∧ lane w v i = c) ∨ ∀ i, i < n → lane w v i < c))) ∧
  (∀ (o : Opnd) (s : State),
      let p := s.myCore.spa
      let fmt := o.mf 9 6
      let mode := roundMode (o.mf 2 0) s.me.sys.fmode
      let a (i : Nat) : Nat := lane 32 (s.rv o.a.toNat).toNat i
      let b (i : Nat) : Nat := lane 32 (s.rv o.b.toNat).toNat i
      let sets (q : Spa) : State := s.modMyCore fun k => { k with spa := q }
      let pairs := ((List.range 32).filter fun i => s.lives o 32 i && a i != 2 ^ 32 - 1).map fun i => (a i, b i)
      let new := ((pairs.map Prod.fst).filter fun c => (p.entries.find c).isNone).eraseDups
      let useAcc := useV o [o.a.toNat, o.b.toNat] []
      let right := fmt = 7 ↔ p.isS32 = true
      let m := p.entries.take 32
      (s.mayRun .none → exec (.vspaclr o) s = completes o .none s (sets ⟨decide (fmt = 7), []⟩)) ∧
      (s.mayRun useAcc →
        (¬right → exec (.vspaacc o) s = traps o s .vectorShape (Instr.vspaacc o).info) ∧
        (right → 1024 < p.entries.length + new.length →
          exec (.vspaacc o) s = traps o s .spaOverflow (BitVec.ofNat 64 p.entries.length)) ∧
        (right → p.entries.length + new.length ≤ 1024 → ∃ q fl, exec (.vspaacc o) s = completes o useAcc s ((sets q).addFlags fl) ∧
          q.isS32 = p.isS32 ∧ (∀ c, (∀ x ∈ pairs, x.1 ≠ c) → q.entries.find c = p.entries.find c) ∧
          (∀ c v, pairs.filter (fun x => x.1 == c) = [(c, v)] → q.entries.find c = match p.entries.find c with
            | none => some (BitVec.ofNat 32 v)
            | some old => some (BitVec.ofNat 32 (if p.isS32 then
                (max (-2 ^ 31) (min (2 ^ 31 - 1) (old.toInt + (BitVec.ofNat 32 v).toInt)) % 2 ^ 32).toNat
              else (addLane 0 mode old.toNat v).1))))) ∧
      (s.mayRun (useV1 o) →
        (¬right → exec (.vspaget o) s = traps o s .vectorShape (Instr.vspaget o).info) ∧
        (right → givesLanes (.vspaget o) o (useV1 o) s 32 fun i => ((p.entries.get 0 (a i)).toNat, 0))) ∧
      (s.mayRun ⟨[], [o.a.toNat], [], [o.d.toNat, o.d.toNat + 1], [], []⟩ → ∃ c v,
        exec (.vspadrain o) s = completes o ⟨[], [o.a.toNat], [], [o.d.toNat, o.d.toNat + 1], [], []⟩ s
          ((((sets { p with entries := p.entries.drop 32 }).lv o.d.toNat (.vec (BitVec.ofNat 1024 c)) o.len).lv (o.d.toNat + 1)
            (.vec (BitVec.ofNat 1024 v)) o.len).lg o.a.toNat (.word (BitVec.ofNat 64 m.length)) o.len) ∧
        ∀ i, i < 32 → ((m.map Prod.fst)[i]?.elim (2 ^ 32 - 1) (· % 2 ^ 32) = lane 32 c i) ∧
          (m.map Prod.snd)[i]?.elim 0 BitVec.toNat = lane 32 v i))

/-- R88, R136, R266, R268: A vector instruction of registers that completes sets flags and puts its result in flight: until it returns no
register has changed, and no byte of memory, no flag cleared, no engine. A result that is appended to a segmented write stream may bring the
next segment length to be read, and an error found there strikes the chase (R106, R217). -/
def Obligations.VectorInstructionsChangeOnlyFlagsAndTheirResult : Prop :=
  ∀ (o : Opnd) (s t : State),
    let frame (l : List Instr) (use : Use) : Prop := s.mayRun use → ∀ i ∈ l, exec i s = .next t →
      (∀ c info, exec i s ≠ traps o s c info) → onlyFlags s { t with chases := s.chases } s.cur [] ∧
        (s.myCore.binding s.cur.ctx true o.d.toNat = none → s.myCore.binding s.cur.ctx false o.d.toNat = none → t.chases = s.chases)
    frame [.vadd o, .vsub o, .vmul o, .vdiv o, .vmin o, .vmax o, .vand o, .vor o, .vxor o, .vshl o, .vshr o, .vsar o, .vadds o, .vsubs o]
      (useV2 o) ∧
    frame [.vabs o, .vneg o, .vexp2 o, .vlog2 o, .vrcp o, .vrsqrt o, .vsin o, .vcos o, .vtanh o, .vsqrt o, .vmov o, .vcvt o, .vredsum o,
      .vredmin o, .vredmax o, .vscan o, .vcompress o, .vexpand o, .vspaget o] (useV1 o) ∧
    frame [.vfma o, .vfms o, .vfnma o, .vfnms o, .vdot4 o, .vdot2 o, .vcdot o, .vcdot4 o] (useV3 o) ∧
    frame [.vsel o, .vperm o, .vunion o] (useV o [o.a.toNat, o.b.toNat] [o.d.toNat]) ∧
    frame [.vbcast o] ⟨[o.a.toNat], [], [], [o.d.toNat], useMask o, []⟩ ∧
    frame [.vrot o] ⟨[o.b.toNat], [], [o.a.toNat], [o.d.toNat], useMask o, []⟩ ∧
    frame [.vextr o] ⟨[o.b.toNat], [o.d.toNat], [o.a.toNat], [], [], []⟩ ∧
    frame [.vcmpeq o, .vcmplt o, .vcmple o, .vcmpne o, .visect o] (useVcmp o) ∧
    frame [.kand o, .kor o, .kxor o] (useK [formX o, formY o] o) ∧ frame [.knot o, .kmov o] (useK [o.a.toNat] o) ∧
    frame [.kset o] ⟨[o.a.toNat], [], [], [], [], [o.d.toNat]⟩ ∧ frame [.kpopc o, .kfirst o] (useKg o)

/-! ## Engines that instructions command -/

/-- R202, R291 to R297, R300, R304 to R307: A matrix command whose descriptors are in order joins its core's queue under the next identifier,
with an event entry reserved and quoins registered as it asks. A bad descriptor, a quire tag of a quire that the unit takes no part in and a
range outside its space trap; accesses of the context to host or peer memory that are not performed (R123) and a full queue make it wait.
MWAIT waits while its identifier is outstanding; MSTAT reads the two counters; MWRR at supervisor privilege sets the four weights, none of
them zero, and at user privilege traps PRIVILEGE, whatever its register comes to (R52). -/
def Obligations.MatrixCommandsAreQueuedAndAwaited : Prop :=
  (∀ (o : Opnd) (s : State),
      let q := s.myCore.mq
      let u := s.cur
      let cmd (op : MOp) (dd da db : Word) : MCmd :=
        { ident := q.next, op := op, mod := o.mod, dd := dd, da := da, db := db, ctx := u.ctx, live := true, cancel := false
          bkey := s.me.sys.bkey, rnd := s.me.sys.fmode }
      let d := s.rg o.d.toNat
      let a := s.rg o.a.toNat
      let b := s.rg o.b.toNat
      let issues (i : Instr) (use : Use) (m : MCmd) : Prop := s.mayRun use →
        let reason (r : Nat) : Word := infoE 5 u.core r q.next.toNat
        let taken := m.tag = false ∨ (s.quire u.tile m.quire).takes 12 = true
        (∀ r, m.bad = some r → exec i s = traps o s .matrixCommand (reason r)) ∧
        (m.bad = none → ¬taken → exec i s = traps o s .matrixCommand (reason 6)) ∧
        (m.bad = none → taken → ∀ c e, m.rangeFault = some (c, e) → exec i s = traps o s c e) ∧
        (m.bad = none → taken → m.rangeFault = none →
          (s.awaitsOutside u = true → exec i s = waits s s (.fence 2 3)) ∧
          (s.awaitsOutside u = false → 8 ≤ q.cmds.length → exec i s = waits s s .matrixQueue) ∧
          (s.awaitsOutside u = false → q.cmds.length < 8 → (m.event = true → s.myCore.evq.hasRoom = true) → (m.quoin = true → 3 ≤ s.myTile.freeQuoins.length) →
            ∃ s1, exec i s = completes o use s s1 ∧ s1.myCore.mq = { q with cmds := q.cmds ++ [m], next := q.next + 1 } ∧
              s1.myCore.evq = { s.myCore.evq with held := s.myCore.evq.held + m.event.toNat } ∧
              keepsMemory s s1 ∧ keepsRegisters s s1 u [] ∧ keepsSpecial s s1 ∧ keepsOutside s s1))
      issues (.mma o) (useMma o) (cmd (.mma false) d a b) ∧ issues (.mmaZ o) (useMma o) (cmd (.mma true) d a b) ∧
      issues (.mmac o) (useMma o) (cmd (.mmac false) d a b) ∧ issues (.mmacZ o) (useMma o) (cmd (.mmac true) d a b) ∧
      issues (.mwload o) (.g [o.d.toNat, o.a.toNat] []) (cmd .mwload d a 0) ∧ issues (.mclr o) (.g [o.a.toNat] []) (cmd .mclr 0 a 0) ∧
      issues (.mdrain o) (.g [o.d.toNat, o.a.toNat] []) (cmd .mdrain d a 0)) ∧
  (∀ (o : Opnd) (s : State),
      let q := s.myCore.mq
      let a := s.rg o.a.toNat
      let n : BitVec 32 := a.setWidth 32
      let passed := 1 ≤ (q.done - n).toNat ∧ (q.done - n).toNat < 2 ^ 31
      let open_ := ¬passed ∧ (n - q.done).toNat < (q.next - q.done).toNat
      let ws := (List.range 4).map fun i => (a.extractLsb' (8 * i) 8).toNat
      (s.mayRun (.g [o.a.toNat] []) →
        (open_ → exec (.mwait o) s = waits s s (.matrixDone s.cur.core n)) ∧
        (¬open_ → exec (.mwait o) s = completes o (.g [o.a.toNat] []) s s)) ∧
      (s.mayRun .none → s.me.trap.ts.priv = false → exec (.mwrr o) s = traps o s .privilege (Instr.mwrr o).info) ∧
      (s.mayRun .none → s.mayRun (.g [o.a.toNat] []) → s.me.trap.ts.priv = true →
        (0 ∈ ws ∨ a.extractLsb' 32 32 ≠ 0 → exec (.mwrr o) s = traps o s .matrixCommand (infoE 5 s.cur.core 7 q.next.toNat)) ∧
        (0 ∉ ws → a.extractLsb' 32 32 = 0 → ∃ s1, exec (.mwrr o) s = completes o .none s (s1.consume s.cur (.g [o.a.toNat] [])) ∧
          s1.myTile.eng = { s.myTile.eng with arbiter := { s.myTile.eng.arbiter with weights := ws, fresh := true } } ∧
          keepsMemory s s1 ∧ keepsRegisters s s1 s.cur [] ∧ keepsSpecial s s1 ∧ keepsOutside s s1)) ∧
      (s.mayRun (.g [] [o.d.toNat]) →
        exec (.mstat o) s = completes o (.g [] [o.d.toNat]) s (s.wg o.d.toNat (BitVec.ofNat 64 (q.done.toNat + 2 ^ 32 * q.next.toNat)))))

/-- R199 to R204: CPSET writes a shadow register; CPGO checks them in their order, and queues the transfer that they describe under the next
identifier, which d receives, once the context's accesses to host and peer memory are performed (R123); CPDONE reads the channel's progress;
CPWAIT waits while its identifier is outstanding. -/
def Obligations.CopyTransfersAreQueued : Prop :=
  ∀ (o : Opnd) (s : State),
    let u := s.cur
    let h := o.a.toNat % 16
    let k := s.channel u.tile h
    let p := planOf k.shadow
    let use : Use := .g [] [o.d.toNat]
    let n : BitVec 32 := (s.rg o.d.toNat).setWidth 32
    let passed := 1 ≤ (k.done - n).toNat ∧ (k.done - n).toNat < 2 ^ 31
    let open_ := ¬passed ∧ (n - k.done).toNat < (k.next - k.done).toNat
    let bad := badShadow k.shadow fun q => (s.quire u.tile q).takes (4 + h)
    let fault := (p.src.fault p.lens p.total false).or (p.dst.fault p.lens p.total true)
    let tr : Transfer := { ident := k.next, snap := k.shadow, rnd := s.me.sys.fmode, bkey := s.me.sys.bkey, by_ := ⟨u.core, u.ctx⟩, flags := 0
                           voided := false, cancel := false, bytes := 0 }
    (s.mayRun (.g [o.a.toNat] []) → exec (.cpset o) s = completes o (.g [o.a.toNat] []) s (s.modChannel u.tile o.d.toNat fun k =>
      { k with shadow := k.shadow.set 0 o.fx.toNat (s.rg o.a.toNat) })) ∧
    (s.mayRun use →
      exec (.cpdone o) s = completes o use s (s.wg o.d.toNat (k.done.setWidth 64)) ∧
      (∀ r rest, bad = r :: rest → exec (.cpgo o) s = traps o s .copyDescriptor (infoE 1 h r k.next.toNat)) ∧
      (bad = [] → ∀ c e, fault = some (c, e) → exec (.cpgo o) s = traps o s c e) ∧
      (bad = [] → fault = none → p.overlap = true → exec (.cpgo o) s = traps o s .copyDescriptor (infoE 1 h 1 k.next.toNat)) ∧
      (bad = [] → fault = none → p.overlap = false → s.awaitsOutside u = true → exec (.cpgo o) s = waits s s (.fence 2 3)) ∧
      (bad = [] → fault = none → p.overlap = false → s.awaitsOutside u = false → 8 ≤ k.queue.length →
        exec (.cpgo o) s = waits s s (.copyQueue h)) ∧
      (bad = [] → fault = none → p.overlap = false → s.awaitsOutside u = false → k.queue.length < 8 → (p.ev = true → s.myCore.evq.hasRoom = true) →
        (p.quoin = true → 2 ≤ s.myTile.freeQuoins.length) → ∃ s1, exec (.cpgo o) s = completes o use s (s1.wg o.d.toNat (k.next.setWidth 64)) ∧
          s1.channel u.tile h = { k with queue := k.queue ++ [tr], next := k.next + 1 } ∧
          s1.myCore.evq = { s.myCore.evq with held := s.myCore.evq.held + p.ev.toNat } ∧
          keepsMemory s s1 ∧ keepsRegisters s s1 u [] ∧ keepsSpecial s s1 ∧ keepsOutside s s1)) ∧
    (s.mayRun (.g [o.d.toNat] []) →
      (open_ → exec (.cpwait o) s = waits s s (.copyDone h n)) ∧
      (¬open_ → exec (.cpwait o) s = completes o (.g [o.d.toNat] []) s s))

/-- R216, R217, R220 to R223: SBIND and its forms bind the unit of register d to the pattern that 64 bytes of T describe, under the unit's next
identifier, with an event entry and a quoin as it asks. A descriptor outside T or misaligned, one with a bad field and a pattern that leaves
its space trap, and so does a quoin that holds the descriptor (R25); a unit that another context holds and accesses of the context that are
not performed (R123) make it wait. A segmented write binding reads its first segment length, and an error found there strikes the chase.
SUNBIND ends a binding that owes nothing, else it waits; SSTAT reads a binding's status, 0 where there is none; BSTOP tells whether a stop
token of its level or above stands at the head; SSKIP discards up to and with it. Without a binding, or with a write binding, the reading
ones trap. -/
def Obligations.StreamsBindEndReportAndSkip : Prop :=
  (∀ (o : Opnd) (s : State), s.mayRun (.g [o.a.toNat] []) →
      let t := s.cur.tile
      let c := s.cur.core
      let a := (s.rg o.a.toNat).toNat
      let v := s.readLocal t 0 .t noKey a 64
      let p := patternOf v
      let binds (i : Instr) (vector write : Bool) : Prop :=
        let unit := unitOf vector o.d.toNat
        let ident := (s.myCore.stream unit).nbind + 1
        let b := { newBinding s.cur.ctx write p s.me.sys.bkey ident with held := s.unitHeld t 1 (0x40 + 16 * c + unit) }
        let bound := if write && p.seg then b.seek (s.segLen t b) 0 else b
        let readable := a + 64 ≤ 0x100000 ∧ a % 64 = 0 ∧ s.descHit a 64 = none ∧ s.badLocal t c .t noKey a 64 = none
        (∀ w, (s.myCore.stream unit).bind = some w → w.owner ≠ s.cur.ctx → exec i s = waits s s (.streamFree unit)) ∧
        ((s.myCore.stream unit).bind = none →
          (0x100000 ≤ a → exec i s = traps o s .spaceRange (infoM a 0 3 false)) ∧
          (a < 0x100000 → a % 64 ≠ 0 → exec i s = traps o s .align (infoM a 0 3 false)) ∧
          (∀ e w, a < 0x100000 → a % 64 = 0 → s.descHit a 64 = some (e, w) → exec i s = traps o s e w) ∧
          (∀ x, a < 0x100000 → a % 64 = 0 → s.descHit a 64 = none → s.badLocal t c .t noKey a 64 = some x →
            exec i s = traps o s .localEcc (infoM x 0 3 false)) ∧
          (readable → ∀ off, patternCheck v vector = some off →
            exec i s = traps o s .copyDescriptor (infoE 1 (0x10 + unit) off 0)) ∧
          (readable → patternCheck v vector = none → ∀ e w, p.fault vector write = some (e, w) → exec i s = traps o s e w) ∧
          (readable → patternCheck v vector = none → p.fault vector write = none → s.awaitsOutside s.cur = true →
            exec i s = waits s s (.fence 2 3)) ∧
          (readable → patternCheck v vector = none → p.fault vector write = none → s.awaitsOutside s.cur = false →
            (p.ev = true → s.myCore.evq.hasRoom = true) → (p.quoin = true → s.myTile.freeQuoins ≠ []) → ∃ s1, exec i s = completes o (.g [o.a.toNat] []) s s1 ∧
              s1.myCore.stream unit =
                { bind := some bound, nbind := ident, cancelled := (s.myCore.stream unit).cancelled.filter (· != s.cur.ctx) } ∧
              s1.myCore.evq = { s.myCore.evq with held := s.myCore.evq.held + p.ev.toNat } ∧
              keepsMemory s s1 ∧ keepsRegisters s s1 s.cur [] ∧ keepsSpecial s s1 ∧ keepsOutside s { s1 with chases := s.chases } ∧
              (bound.ending = none → s1.chases = s.chases)))
      binds (.sbind o) false false ∧ binds (.sbindw o) false true ∧ binds (.sbindv o) true false ∧ binds (.sbindvw o) true true) ∧
  (∀ (o : Opnd) (s : State),
      let n := o.a.toNat
      let vector := decide (24 ≤ n)
      let unit := unitOf vector n
      let bind := s.myCore.binding s.cur.ctx vector n
      let reg : Word := BitVec.ofNat 64 (n + 64 * vector.toNat)
      let use : Use := .g [] [o.d.toNat]
      let level := o.f.toNat
      let sets (buf : List StreamItem) : State := s.modMyCore fun k => k.modBinding unit fun b => { b with buf := buf }
      (s.mayRun .none →
        (bind = none → exec (.sunbind o) s = traps o s .streamUnbound reg ∧ exec (.sskip o) s = traps o s .streamUnbound reg) ∧
        (∀ b, bind = some b →
          (s.canUnbind s.cur.tile s.cur.core unit b = true → ∃ s1, exec (.sunbind o) s = completes o .none s s1 ∧
            s1.myCore.binding s.cur.ctx vector n = none ∧ keepsMemory s s1 ∧ keepsRegisters s s1 s.cur [] ∧ keepsSpecial s s1 ∧
            keepsOutside s s1) ∧
          (s.canUnbind s.cur.tile s.cur.core unit b = false → exec (.sunbind o) s = waits s s (.streamFlush (some unit))) ∧
          (b.write = true → exec (.sskip o) s = traps o s .streamDirection reg) ∧
          (b.write = false →
            (∀ k rest, level ≤ k → ∀ es : List StreamItem, (∀ x ∈ es, (∃ v, x = .elem v) ∨ ∃ j, x = .stop j ∧ j < level) →
              b.buf = es ++ .stop k :: rest → exec (.sskip o) s = completes o .none s (sets rest)) ∧
            (b.buf = [] → exec (.sskip o) s = waits s (sets []) (.streamRead unit))))) ∧
      (s.mayRun use →
        (bind = none → exec (.bstop o) s = traps o s .streamUnbound reg ∧ exec (.sstat o) s = completes o use s (s.wg o.d.toNat 0)) ∧
        (∀ b, bind = some b →
          (∃ v, exec (.sstat o) s = completes o use s (s.wg o.d.toNat v) ∧ v.getLsbD 0 = true ∧ v.getLsbD 1 = b.write ∧ v.getLsbD 2 = vector ∧
            ((∀ l rest, b.buf = .stop l :: rest → l ≤ 3) → v.extractLsb' 32 32 = BitVec.ofNat 32 b.count)) ∧
          (b.write = true → exec (.bstop o) s = traps o s .streamDirection reg) ∧
          (b.write = false →
            (b.buf = [] → exec (.bstop o) s = waits s s (.streamRead unit)) ∧
            (∀ x rest, b.buf = .elem x :: rest → exec (.bstop o) s = completes o use s (s.wg o.d.toNat 0)) ∧
            (∀ k rest, b.buf = .stop k :: rest → exec (.bstop o) s = completes o use s (s.wg o.d.toNat (if level ≤ k then 1 else 0))) ∧
            (∀ rest, b.buf = .terminal :: rest → exec (.bstop o) s = completes o use s (s.wg o.d.toNat 1))))))

/-- R244, R245, R247 to R249: WLAUNCH reads and checks the signature at its operand, waits with what it has read where its walker is not idle,
four walks are open or the context's accesses are not performed, and opens the walk and gives its number; executed again after its wait, it
goes on with what it has read. WNEXT gives −1 to a handler that holds no coordinate, and else retires the one held and waits for the next.
WSTEAL gives 5 or 6 where it may not ask, and else asks its victim and waits for the answer, which it gives. WSTAT reads the walker; WJOIN
waits while the walk is open. -/
def Obligations.WalkerInstructionsOpenAndClaim : Prop :=
  ∀ (o : Opnd) (s : State),
    let t := s.cur.tile
    let c := s.cur.core
    let w := s.walker t c
    let a := (s.rg o.a.toNat).toNat
    let v := s.readLocal t 0 .t noKey a 128
    let g := signatureOf v
    let useD : Use := .g [] [o.d.toNat]
    let useA : Use := .g [o.a.toNat] [o.d.toNat]
    let readable := a + 128 ≤ 0x100000 ∧ a % 128 = 0 ∧ s.me.isItem = false ∧ s.descHit a 128 = none ∧
      s.badLocal t c .t noKey a 128 = none
    let check := signatureCheck v fun q => (s.quire t q).takes c
    let gives (i : Instr) (use : Use) (s1 : State) (x : Word) : Prop :=
      exec i s = completes o use s (s1.lg o.d.toNat (.word x) o.len)
    let walk : BitVec 32 := (s.rg o.a.toNat).setWidth 32
    let launches (v : Nat) (s2 : State) : Prop :=
      let g := signatureOf v
      let keeps : State := s2.modMe fun k => { k with kept := some (v, g.ev) }
      (s.awaitsOutside s.cur = true → exec (.wlaunch o) s = waits s keeps (.fence 2 3)) ∧
      (s.awaitsOutside s.cur = false → w.piece ≠ none ∨ w.asking ≠ none ∨ 4 ≤ w.open_.length → exec (.wlaunch o) s = waits s keeps .walker) ∧
      (s.awaitsOutside s.cur = false → w.piece = none → w.asking = none → w.open_.length < 4 → ∃ s1,
        gives (.wlaunch o) useA s1 (w.nextId.setWidth 64) ∧ keepsMemory s s1 ∧ keepsRegisters s s1 s.cur [] ∧
        (s1.walker t c).nextId = w.nextId + 1 ∧
        (g.total ≠ 0 → ∃ p, (s1.walker t c).piece = some p ∧ p.walk = w.nextId ∧ p.next = 0 ∧ p.stop = g.total ∧ p.sig = g ∧
          p.flying = [] ∧ p.thief = false))
    (s.mayRun useA →
      (s.me.kept = none → 0x100000 ≤ a → exec (.wlaunch o) s = traps o s .spaceRange (infoM a 0 3 false)) ∧
      (s.me.kept = none → a < 0x100000 → a % 128 ≠ 0 → exec (.wlaunch o) s = traps o s .align (infoM a 0 3 false)) ∧
      (s.me.kept = none → a < 0x100000 → a % 128 = 0 → s.me.isItem = true →
        exec (.wlaunch o) s = traps o s .walkRecord (BitVec.ofNat 64 (a + 2 ^ 20 * 127))) ∧
      (s.me.kept = none → readable → ∀ off, check = some off →
        exec (.wlaunch o) s = traps o s .walkRecord (BitVec.ofNat 64 (a + 2 ^ 20 * off))) ∧
      (s.me.kept = none → readable → check = none → g.ev = true → s.myCore.evq.hasRoom = false →
        exec (.wlaunch o) s = traps o s .eventOverflow (BitVec.ofNat 64 (2 + 256 * c))) ∧
      (s.me.kept = none → readable → check = none → (g.ev = true → s.myCore.evq.hasRoom = true) →
        launches v (if g.ev then s.reserveEvent t c else s)) ∧
      (∀ v' e, s.me.kept = some (v', e) → launches v' s) ∧
      (∀ vt, w.answer.find s.cur.ctx = none → Tag.kind ((s.rg o.a.toNat).setWidth 24) = 1 →
        s.tileOf ((s.rg o.a.toNat).setWidth 24) = some vt →
        (w.asking ≠ none → exec (.wsteal o) s = waits s s .steal) ∧
        (w.asking = none → w.piece ≠ none → gives (.wsteal o) useA s 5) ∧
        (w.asking = none → w.piece = none → vt = t → a / 2 ^ 24 % 4 = c → gives (.wsteal o) useA s 6) ∧
        (w.asking = none → w.piece = none → (vt ≠ t ∨ a / 2 ^ 24 % 4 ≠ c) → ∃ s1, exec (.wsteal o) s = waits s s1 .steal ∧
          (s1.walker t c).asking = some (some s.cur.ctx) ∧
          s1.net = s.net ++ [.stealAsk vt (a / 2 ^ 24 % 4) ⟨⟨s.tileTag t, c⟩, t, some s.cur.ctx, none⟩])) ∧
      (∀ x, w.answer.find s.cur.ctx = some x → ∃ s1, gives (.wsteal o) useA s1 x ∧
        (s1.walker t c) = { w with answer := w.answer.erase s.cur.ctx }) ∧
      (w.answer.find s.cur.ctx = none → Tag.kind ((s.rg o.a.toNat).setWidth 24) ≠ 1 →
        exec (.wsteal o) s = traps o s .walkSteal (BitVec.ofNat 64 (a % 2 ^ 26)))) ∧
    (s.mayRun useD →
      (s.holdsCoord s.cur = false → gives (.wnext o) useD s (BitVec.allOnes 64)) ∧
      (∀ x, s.holdsCoord s.cur = true → s.retireHeld s.cur = some x → exec (.wnext o) s = waits s s x) ∧
      (s.holdsCoord s.cur = true → s.retireHeld s.cur = none → ∃ s1 b, exec (.wnext o) s = waits s s1 .claim ∧
        (s1.walker t c).claims = w.claims ++ [(s.cur.ctx, b)] ∧ keepsRegisters s s1 s.cur []) ∧
      (∀ p, w.piece = some p → o.a.toNat % 16 ∈ [1, 2, 3] → exec (.wstat o) s = completes o useD s (s.wg o.d.toNat (BitVec.ofNat 64
        (if o.a.toNat % 16 = 1 then p.next else if o.a.toNat % 16 = 2 then p.stop else p.retired)))) ∧
      ∃ x, exec (.wstat o) s = completes o useD s (s.wg o.d.toNat x)) ∧
    (s.mayRun (.g [o.a.toNat] []) →
      ((∃ x ∈ w.open_, x.walk = walk) → exec (.wjoin o) s = waits s s (.walk walk)) ∧
      ((∀ x ∈ w.open_, x.walk ≠ walk) → exec (.wjoin o) s = completes o (.g [o.a.toNat] []) s s))

/-! ## Ports and mail -/

/-- R120, R128, R319, R331: A SEND without an arc traps PORT_UNBOUND; one whose context is owed an acknowledgement, or has accesses to host or
peer memory under way, or whose port has no slot, waits; else it puts one token on its arc, with the port's next sequence number, and takes
a slot. SENDV sends a vector register, SENDT 128 bytes of T, SENDG eight bytes, SENDC a colophon of level 0 to 3, and traps at a higher
level. -/
def Obligations.SendsPutOneTokenOnTheirArc : Prop :=
  ∀ (o : Opnd) (s : State),
    let t := s.cur.tile
    let p := o.a.toNat % 16
    let out := s.outPort t p
    let g := s.rg o.d.toNat
    let a := g.toNat
    let owed := s.me.acks ≠ 0 ∨ s.awaitsOutside s.cur = true
    let sends (i : Instr) (use : Use) (kind : TokKind) (payload : Token) (len : Nat) : Prop :=
      (owed → exec i s = waits s s (.fence 2 2)) ∧
      (¬owed → out.slots = 0 ∨ out.seamed = true → exec i s = waits s s (.send p)) ∧
      (¬owed → out.slots ≠ 0 → out.seamed = false → ∃ s1, exec i s = completes o use s s1 ∧
        s1.net = s.net ++ [.token (s.placeOf out.dtag) out.dtag out.dport { kind := kind, payload := payload, len := len, stag := roleTag t
                                                                            sport := p, seq := out.seq, status := 0, row := 0, dreq := none, via := none }] ∧
        s1.outPort t p = { out with seq := out.seq + 1, slots := out.slots - 1 } ∧ (∀ q, q ≠ p → s1.outPort t q = s.outPort t q) ∧
        keepsMemory s s1 ∧ keepsRegisters s s1 s.cur [] ∧ keepsSpecial s s1)
    let useV : Use := ⟨[], [], [o.d.toNat], [], [], []⟩
    let useG : Use := .g [o.d.toNat] []
    (s.mayRun useV →
      (out.arc = false → exec (.sendv o) s = traps o s .portUnbound (BitVec.ofNat 64 (p + 16))) ∧
      (out.arc = true → sends (.sendv o) useV .data (s.rv o.d.toNat) 16)) ∧
    (s.mayRun useG →
      (out.arc = false → ∀ i ∈ [Instr.sendt o, .sendg o, .sendc o], exec i s = traps o s .portUnbound (BitVec.ofNat 64 (p + 16))) ∧
      (out.arc = true →
        sends (.sendg o) useG .data (g.setWidth 1024) 1 ∧ (a < 4 → sends (.sendc o) useG (.colophon a) 0 0) ∧
        (4 ≤ a → exec (.sendc o) s = traps o s .portProtocol (BitVec.ofNat 64 (p + 16 * (a % 4)))) ∧
        (0x100000 ≤ a → exec (.sendt o) s = traps o s .spaceRange (infoM a 0 3 false)) ∧
        (a < 0x100000 → 0x100000 < a + 128 → exec (.sendt o) s = traps o s .windowCross (infoM a 0 3 false)) ∧
        (a + 128 ≤ 0x100000 → a % 16 ≠ 0 → exec (.sendt o) s = traps o s .align (infoM a 0 3 false)) ∧
        (∀ x, a + 128 ≤ 0x100000 → a % 16 = 0 → s.quoinFault t s.cur.core .t a 128 false = none →
          s.badLocal t s.cur.core .t s.myKey a 128 = some x → exec (.sendt o) s = traps o s .localEcc (infoM x 0 3 false)) ∧
        (a + 128 ≤ 0x100000 → a % 16 = 0 → s.quoinFault t s.cur.core .t a 128 false = none → s.badLocal t s.cur.core .t s.myKey a 128 = none →
          sends (.sendt o) useG .data (BitVec.ofNat 1024 (s.readLocal t s.cur.core .t s.myKey a 128)) 16)))

/-- R322, R326, R332 to R334: A RECV of an empty port waits, and of a colophon or at a sealed port it traps; else it takes the payload of the
head, to a vector register, to T or to a general register, and the token's slot goes back to its producer, over the link by which it came if
it came by one, unless the token is resident; a poisoned reply traps DRAM_POISON (R352). PEEK reads the port's status; FWDC sends the
colophon at the head on the ports of its mask, and consumes it. -/
def Obligations.ReceivesTakeTheHeadOfTheirPort : Prop :=
  ∀ (o : Opnd) (s : State),
    let t := s.cur.tile
    let p := o.a.toNat % 16
    let d := s.inPort t p
    let a := (s.rg o.d.toNat).toNat
    let unbound (out : Bool) (q : Nat) : Word := BitVec.ofNat 64 (q + 16 * out.toNat)
    let slotOf (k : Tok) : Msg := match k.dreq with
      | some (g, q) => .slot (s.placeOf g) g q k.seq t
      | none =>
        if s.inputAt (s.tileTag t) p then .formeSlot (s.tileTag t) p
        else .slot (s.placeOf (d.producer k).1) (d.producer k).1 (d.producer k).2 k.seq t
    let poison := 0x8000 + Cause.dramPoison.code
    let taken (s1 : State) (k : Tok) (rest : List Tok) : Prop :=
      (k.dreq ≠ none ∨ k.via = none → s1.net = s.net ++ [slotOf k]) ∧ (k.dreq = none → k.via ≠ none → s1.net = s.net) ∧ (s1.inPort t p).queue = rest ∧ keepsRegisters s s1 s.cur [] ∧ keepsSpecial s s1
    let receives (i : Instr) (use : Use) (gives : Token → State → Prop) : Prop :=
      (d.queue = [] → exec i s = waits s s (.recv p)) ∧
      (∀ k rest, d.queue = k :: rest →
        (∀ l, k.kind = .colophon l → exec i s = traps o s .portProtocol (BitVec.ofNat 64 (p + 16 * l))) ∧
        (k.kind = .data →
          (∀ l, d.sealed_ = some l → exec i s = traps o s .portProtocol (BitVec.ofNat 64 (p + 16 * l))) ∧
          (d.sealed_ = none → d.sticky ≠ 0 → s.firingOf s.cur = none →
            exec i s = traps o s .stickyMisuse (BitVec.ofNat 64 (p + 16 * d.uses.getD 0))) ∧
          (d.sealed_ = none → (d.sticky = 0 ∨ s.firingOf s.cur ≠ none) → k.status.toNat = poison →
            exec i s = traps o s .dramPoison (infoM 0 4 3 false)) ∧
          (d.sealed_ = none → d.sticky = 0 → d.uses = none → k.status.toNat ≠ poison → ∃ s1, exec i s = completes o use s s1 ∧ gives k.payload s1 ∧
            taken s1 k rest) ∧
          (∀ n, d.sealed_ = none → s.firingOf s.cur ≠ none → d.uses = some n → k.status.toNat ≠ poison → ∃ s1, exec i s = completes o use s s1 ∧
            gives k.payload s1 ∧ s1.net = s.net ∧ s1.inPort t p = d)))
    let flies (dest : Dest) (value : Payload) (s2 : State) : Prop :=
      s2.me.flights = s.me.flights ++ [⟨dest, value, s.me.pc, o.len⟩] ∧ keepsMemory s s2
    let useV : Use := ⟨[], [], [], [o.d.toNat], [], []⟩
    (s.mayRun useV → s.myCore.binding s.cur.ctx true o.d.toNat = none →
      (d.arc = false → exec (.recvv o) s = traps o s .portUnbound (unbound false p)) ∧
      (d.arc = true → receives (.recvv o) useV fun v s2 => flies (.v o.d.toNat) (.vec v) s2)) ∧
    (s.mayRun (.g [] [o.d.toNat]) →
      (d.arc = false → exec (.recvg o) s = traps o s .portUnbound (unbound false p) ∧
        exec (.peek o) s = traps o s .portUnbound (unbound false p)) ∧
      (d.arc = true → s.myCore.binding s.cur.ctx false o.d.toNat = none →
        receives (.recvg o) (.g [] [o.d.toNat]) fun v s2 => flies (.g o.d.toNat) (.word (v.setWidth 64)) s2) ∧
      (d.arc = true → d.sticky = 0 ∨ s.firingOf s.cur ≠ none →
        exec (.peek o) s = completes o (.g [] [o.d.toNat]) s (s.wg o.d.toNat d.peek))) ∧
    (s.mayRun (.g [o.d.toNat] []) →
      (d.arc = false → exec (.recvt o) s = traps o s .portUnbound (unbound false p) ∧
        exec (.fwdc o) s = traps o s .portUnbound (unbound false p)) ∧
      (d.arc = true → 0x100000 ≤ a → exec (.recvt o) s = traps o s .spaceRange (infoM a 0 3 true)) ∧
      (d.arc = true → a + 128 ≤ 0x100000 → a % 16 ≠ 0 → exec (.recvt o) s = traps o s .align (infoM a 0 3 true)) ∧
      (d.arc = true → a + 128 ≤ 0x100000 → a % 16 = 0 → s.quoinFault t s.cur.core .t a 128 true = none →
        receives (.recvt o) (.g [o.d.toNat] []) fun v s2 => s2.readLocal t s.cur.core .t s.myKey a 128 = v.toNat ∧
          s2.me.flights = s.me.flights ∧
          ∀ y c sp b, (y = t ∧ sp = .t → b ∉ (List.range 128).map fun i => tPlace s.myKey (a + i)) →
            (s2.localMem y c sp).bytes.read b = (s.localMem y c sp).bytes.read b) ∧
      (d.arc = true → ∀ l k rest, d.queue = k :: rest → k.kind = .colophon l → s.me.acks = 0 → s.awaitsOutside s.cur = false → l < d.inv → d.uses = none →
        (∀ q, q < 16 → (s.rg o.d.toNat).getLsbD q = true →
          (s.outPort t q).arc = true ∧ (s.outPort t q).slots ≠ 0 ∧ (s.outPort t q).seamed = false) →
        ∃ s1, exec (.fwdc o) s = completes o (.g [o.d.toNat] []) s s1 ∧ (s1.inPort t p).queue = rest ∧
          (∀ q, q < 16 → s1.outPort t q = if (s.rg o.d.toNat).getLsbD q then
            { s.outPort t q with seq := (s.outPort t q).seq + 1, slots := (s.outPort t q).slots - 1 } else s.outPort t q) ∧
          keepsMemory s s1 ∧ keepsRegisters s s1 s.cur [] ∧ keepsSpecial s s1) ∧
      (d.arc = true → d.queue = [] → (∀ q, q < 16 → (s.rg o.d.toNat).getLsbD q = true → (s.outPort t q).arc = true) →
        exec (.fwdc o) s = waits s s (.recv p)))

/-- R320, R327, R335 to R337: BINDH binds or unbinds a port or a mail index, at once where no firing runs, at its end where one does, and sets
the mail limit; an odd entry traps CODE_ALIGN. PSTAT reads an input port, an output port or the mail state; PROOF the proof counter and the
ports with a proof mark at their head. -/
def Obligations.PortsAreBoundAndRead : Prop :=
  ∀ (o : Opnd) (s : State),
    let t := s.cur.tile
    let p := o.a.toNat % 16
    let v := s.rg o.d.toNat
    let d := s.inPort t p
    let e := s.myTile.port
    let useS : Use := .g [o.d.toNat] []
    let useD : Use := .g [] [o.d.toNat]
    let bound : InPort := if v.getLsbD 17 then { d with bound := false, entry := 0, budget := 0 }
      else { d with bound := true, entry := v.setWidth 17, budget := (v >>> 40).setWidth 24 }
    let mail : MailBinding := if v.getLsbD 17 then { entry := 0, valid := false, budget := 0 }
      else { entry := v.setWidth 17, valid := true, budget := (v >>> 40).setWidth 24 }
    (s.mayRun useS →
      (v.getLsbD 17 = false → v.getLsbD 0 = true → exec (.bindh o) s = traps o s .codeAlign s.me.pc ∧
        exec (.bindhMail o) s = traps o s .codeAlign s.me.pc) ∧
      (v.getLsbD 17 = true ∨ v.getLsbD 0 = false →
        (d.arc = false → exec (.bindh o) s = traps o s .portUnbound (BitVec.ofNat 64 p)) ∧
        (d.arc = true → d.uses = none ∨ d.bound = false ∨ v.getLsbD 17 = true ∨ v.setWidth 17 = d.entry →
          (e.firing = none → ∃ s1, exec (.bindh o) s = completes o useS s s1 ∧ s1.inPort t p = bound ∧
            keepsMemory s s1 ∧ keepsRegisters s s1 s.cur [] ∧ keepsSpecial s s1 ∧ keepsOutside s s1) ∧
          (∀ f, e.firing = some f → ∃ s1, exec (.bindh o) s = completes o useS s s1 ∧ s1.inPort t p = d ∧
            s1.myTile.port.firing = some { f with rebinds := f.rebinds ++ [⟨p, v⟩] } ∧
            keepsMemory s s1 ∧ keepsRegisters s s1 s.cur [] ∧ keepsSpecial s s1 ∧ keepsOutside s s1)) ∧
        (∃ s1, exec (.bindhMail o) s = completes o useS s s1 ∧ s1.myTile.port = { e with mails := s1.myTile.port.mails } ∧
          s1.myTile.port.mails.find p = some mail ∧ (∀ q, q ≠ p → s1.myTile.port.mails.find q = e.mails.find q) ∧
          keepsMemory s s1 ∧ keepsRegisters s s1 s.cur [] ∧ keepsSpecial s s1 ∧ keepsOutside s s1)) ∧
      ∃ s1, exec (.bindhMlimit o) s = completes o useS s s1 ∧
        s1.myTile.port = { e with desc := { e.desc with mlimit := s1.myTile.port.desc.mlimit } } ∧
        s1.myTile.port.desc.mlimit.toNat = min 64 v.toNat ∧
        keepsMemory s s1 ∧ keepsRegisters s s1 s.cur [] ∧ keepsSpecial s s1 ∧ keepsOutside s s1) ∧
    (s.mayRun useD →
      (∃ x, exec (.pstat o) s = completes o useD s (s.wg o.d.toNat x) ∧ (d.uses.getD 0 < 256 → d.strays.length < 16 →
        (∀ k l, d.head = some k → k.kind = .colophon l → l < 4) →
        (d.head.isNone → x.extractLsb' 0 5 = 0 ∧ x.extractLsb' 32 32 = 0) ∧
        (∀ k, d.head = some k → x.getLsbD 0 = true ∧ x.extractLsb' 32 32 = k.seq ∧ x.getLsbD 4 = d.uses.isSome ∧
          (k.kind = .data → x.getLsbD 1 = false) ∧ (∀ l, k.kind = .colophon l → x.getLsbD 1 = true ∧ x.extractLsb' 2 2 = BitVec.ofNat 2 l)) ∧
        x.extractLsb' 5 8 = BitVec.ofNat 8 (d.uses.getD 0) ∧ x.getLsbD 13 = d.sealed_.isSome ∧
        x.extractLsb' 14 4 = BitVec.ofNat 4 d.strays.length ∧ x.getLsbD 18 = d.atProof ∧ x.getLsbD 19 = d.bound)) ∧
      exec (.pstatOutput o) s = completes o useD s (s.wg o.d.toNat (BitVec.ofNat 64 ((s.outPort t p).slots + 16 * (s.outPort t p).arc.toNat +
        32 * (s.outPort t p).auto.toNat + 2 ^ 32 * (s.outPort t p).seq.toNat))) ∧
      exec (.pstatMail o) s = completes o useD s (s.wg o.d.toNat (BitVec.ofNat 64 (s.mailsRunning t + 2 ^ 7 * e.reservations.length +
        2 ^ 14 * e.refusals.length + 2 ^ 21 * min 64 e.desc.mlimit.toNat))) ∧
      ∃ x, exec (.proof o) s = completes o useD s (s.wg o.d.toNat x) ∧ x.extractLsb' 0 32 = e.proofAt ∧
        (∀ q, q < 16 → x.getLsbD (33 + q) = (s.inPort t q).atProof) ∧ (x.getLsbD 32 = true ↔ ∃ q, q < 16 ∧ (s.inPort t q).atProof = true))

/-- R120, R338, R341, R342: MAIL puts its 128 bytes in flight to the tile of its tag under its core's next identifier, with an event entry
reserved for a reply, and awaits the answer; a target tag bound to no tile traps MAIL_TARGET. While the context has a mail without an
answer, or accesses that are not performed, it waits with the entry that it has reserved, and goes on with it when executed again. MREPLY
delivers the reply that its handler owes, once no earlier one of the sender's is owed (R23), or gives 1; MWAITF takes the notice of its
target, waits while it is listed there, or gives 1. -/
def Obligations.MailIsSentRepliedAndAwaited : Prop :=
  ∀ (o : Opnd) (s : State),
    let u := s.cur
    let a := s.rg o.a.toNat
    let b := (s.rg o.b.toNat).toNat
    let tag : Tag := a.setWidth 24
    let k := s.me.sender
    let useM : Use := .g [o.a.toNat, o.b.toNat] [o.d.toNat]
    let useR : Use := .g [o.a.toNat] [o.d.toNat]
    let id := s.myTile.port.mailIds.get 1 u.core
    let owed := s.me.acks ≠ 0 ∨ s.awaitsOutside u = true
    let sends (t : Nat) (s2 : State) : Prop :=
      let keeps : State := s2.modMe fun x => { x with kept := some (0, a.getLsbD 28) }
      (s.me.mailOpen = true → exec (.mail o) s = waits s keeps .mailAnswer) ∧
      (s.me.mailOpen = false → owed → exec (.mail o) s = waits s keeps (.fence 2 2)) ∧
      (∀ x, s.me.mailOpen = false → ¬owed → s.badLocal u.tile u.core .t s.myKey b 128 = some x →
        exec (.mail o) s = traps o s .localEcc (infoM x 0 3 false)) ∧
      (s.me.mailOpen = false → ¬owed → s.badLocal u.tile u.core .t s.myKey b 128 = none →
        k.listed = none → k.reserved = none → k.notice = none → ∃ s1, exec (.mail o) s = completes o useM s s1 ∧
          s1.net = s.net ++ [.mail t tag (a.toNat / 2 ^ 24 % 16) u.sender id
            (BitVec.ofNat 1024 (s.readLocal u.tile u.core .t s.myKey b 128)) (a.getLsbD 28)] ∧
          s1.me.flights = s.me.flights ++ [⟨.g o.d.toNat, .answer u.core id, s.me.pc, o.len⟩] ∧
          s1.myTile.port.mailIds.get 1 u.core = id + 1 ∧ s1.myCore.evq = s2.myCore.evq ∧
          keepsMemory s s1 ∧ keepsRegisters s s1 u [] ∧ keepsSpecial s s1)
    (s.mayRun useM →
      (s.me.kept = none → 0x100000 ≤ b → exec (.mail o) s = traps o s .spaceRange (infoM b 0 3 false)) ∧
      (s.me.kept = none → b + 128 ≤ 0x100000 → b % 128 = 0 → s.quoinFault u.tile u.core .t b 128 false = none →
        (s.tileOf tag = none → exec (.mail o) s = traps o s .mailTarget (BitVec.ofNat 64 (a.toNat % 2 ^ 28))) ∧
        (∀ t, s.tileOf tag = some t →
          (a.getLsbD 28 = true → s.myCore.evq.hasRoom = false → exec (.mail o) s = traps o s .eventOverflow 6) ∧
          (a.getLsbD 28 = true → s.myCore.evq.hasRoom = true → sends t (s.reserveEvent u.tile u.core)) ∧
          (a.getLsbD 28 = false → sends t s))) ∧
      (s.me.kept ≠ none → sends (s.placeOf tag) s)) ∧
    (s.mayRun useR →
      (owed → exec (.mreply o) s = waits s s (.fence 2 2)) ∧
      (¬owed → s.replyOf u = none → exec (.mreply o) s = completes o useR s (s.lg o.d.toNat (.word 1) o.len)) ∧
      (¬owed → ∀ r, s.replyOf u = some r → ∃ s1, exec (.mreply o) s = completes o useR s (s1.lg o.d.toNat (.word 0) o.len) ∧
        s1.replyOf u = (s.myTile.port.replies.filter (· ≠ r)).find? (fun q => q.core == u.core && q.ctx == u.ctx && !q.sent) ∧
        (let q := (s.core r.tile r.sender).evq
         let x : Record := ⟨6, 0x10, 0, r.ident, a⟩
         (q.late = [] → s.earlierDue r.tile r.sender x = false →
           (s1.core r.tile r.sender).evq = { ready := q.ready ++ [x], held := q.held - 1, late := [] }) ∧
         (q.late = [] → s.earlierDue r.tile r.sender x = true → (s1.core r.tile r.sender).evq = { q with late := [x] })) ∧
        keepsMemory s s1 ∧ keepsRegisters s s1 u [] ∧ keepsSpecial s s1 ∧ keepsOutside s s1) ∧
      (∀ g, k.notice = some g → s.sameTile tag g = true → exec (.mwaitf o) s = completes o useR s
        ((s.modMe fun x => { x with sender := { k with notice := none } }).lg o.d.toNat (.word 0) o.len)) ∧
      ((∀ g, k.notice = some g → s.sameTile tag g = false) → (∀ g, k.turned = some g → s.sameTile tag g = false) →
        ∀ g, k.listed = some g → s.sameTile tag g = true → exec (.mwaitf o) s = waits s s .mailFree) ∧
      ((∀ g, k.notice = some g → s.sameTile tag g = false) →
        ((∀ g, k.listed = some g → s.sameTile tag g = false) ∨ ∃ g, k.turned = some g ∧ s.sameTile tag g = true) →
        exec (.mwaitf o) s = completes o useR s (s.lg o.d.toNat (.word 1) o.len)))

/-! ## The micro-kernel's instructions -/

/-- R52, R68, R397, R401 to R407, R418, R439: At user privilege every instruction of page 7 traps PRIVILEGE, whatever its operands and their
streams hold. CTXSAVE writes the registers of a context into 5,120 bytes of T and frees it: the pc at 8, general registers from 256, mask
registers from 768, vector registers from 1024. It gives 1 for a free context, 2 for its own, and waits for results in flight. CTXLOAD loads
a free context from such an area; it gives 1 where the context is not free and 2 where the area is bad. -/
def Obligations.PrivilegeIsCheckedAndContextsAreSaved : Prop :=
  (∀ (o : Opnd) (s : State), s.me.trap.ts.priv = false →
      s.mayRun .none →
        ∀ i ∈ [Instr.ctxsave o, .ctxload o, .qmap o, .fmload o, .fmdrain o, .tagbind o, .migrate o, .kload o, .engrd o, .engwr o, .qload o, .qsave o,
          .qunmap o, .fmswap o, .fmclear o, .quoinrd o, .clkplan o], exec i s = traps o s .privilege i.info) ∧
  (∀ (o : Opnd) (s : State), s.mayRun (.g [o.a.toNat, o.b.toNat] [o.d.toNat]) → s.me.trap.ts.priv = true →
      let t := s.cur.tile
      let a := (s.rg o.a.toNat).toNat
      let b := (s.rg o.b.toNat).toNat
      let u : Cur := ⟨t, a / 16 % 4, a % 16⟩
      let gives (i : Instr) (s1 : State) (x : Word) : Prop :=
        exec i s = completes o .none s ((s1.lg o.d.toNat (.word x) o.len).consume s.cur (.g [o.a.toNat, o.b.toNat] [o.d.toNat]))
      let v := s.readLocal t 0 .t noKey b 5120
      let at_ (n k : Nat) : Nat := v / 256 ^ n % 256 ^ k
      (0x100000 ≤ b → exec (.ctxsave o) s = traps o s .spaceRange (infoM b 0 3 true) ∧
        exec (.ctxload o) s = traps o s .spaceRange (infoM b 0 3 false)) ∧
      (b + 5120 ≤ 0x100000 → b % 128 ≠ 0 → exec (.ctxsave o) s = traps o s .align (infoM b 0 3 true) ∧
        exec (.ctxload o) s = traps o s .align (infoM b 0 3 false)) ∧
      (b + 5120 ≤ 0x100000 → b % 128 = 0 → s.quoinFault t s.cur.core .t b 5120 true = none →
        (u = s.cur → gives (.ctxsave o) s 2) ∧
        (u ≠ s.cur → (s.ctx u).status = .free → gives (.ctxsave o) s 1) ∧
        (u ≠ s.cur → (s.ctx u).status ≠ .free → (s.ctx u).flights ≠ [] →
          ∃ s1, exec (.ctxsave o) s = waits s s1 (.ctxSave u.core u.ctx) ∧ (s1.ctx u).waits = some .saving) ∧
        (u ≠ s.cur → (s.ctx u).status ≠ .free → (s.ctx u).flights = [] → (s.ctx u).pend = none →
          (s.tile t).gangOf u.core u.ctx = none → s.outsideStores u = false → ∃ s1,
          gives (.ctxsave o) s1 0 ∧ (s1.ctx u).status = .free ∧ keepsRegisters s s1 s.cur [] ∧
          s1.readLocal t 0 .t noKey (b + 8) 8 = (s.ctx u).pc.toNat ∧
          (∀ n, n < 64 → s1.readLocal t 0 .t noKey (b + 256 + 8 * n) 8 = ((s.ctx u).g n).toNat) ∧
          (∀ n, n < 8 → s1.readLocal t 0 .t noKey (b + 768 + 16 * n) 16 = ((s.ctx u).k n).toNat) ∧
          (∀ n, n < 32 → s1.readLocal t 0 .t noKey (b + 1024 + 128 * n) 128 = ((s.ctx u).v n).toNat) ∧
          ∀ y c sp m, (y = t ∧ sp = .t → m < b ∨ b + 5120 ≤ m) → (s1.localMem y c sp).bytes.read m = (s.localMem y c sp).bytes.read m)) ∧
      (b + 5120 ≤ 0x100000 → b % 128 = 0 → s.quoinFault t s.cur.core .t b 5120 false = none → s.badLocal t 0 .t noKey b 5120 = none →
        ((s.ctx u).status ≠ .free → gives (.ctxload o) s 1) ∧
        ((s.ctx u).status = .free → (∀ r ∈ s.myTile.port.reservations, r.core ≠ u.core ∨ r.ctx ≠ u.ctx) →
          (v % 256 ≠ 1 → gives (.ctxload o) s 2) ∧
          (areaBad v = false → v / 2 ^ 8 % 4 < 2 → v / 2 ^ 10 % 4 ≠ u.core → gives (.ctxload o) s 3) ∧
          (areaBad v = false → (v / 2 ^ 8 % 4 < 2 → v / 2 ^ 10 % 4 = u.core) → ∃ s1, gives (.ctxload o) s1 0 ∧ keepsMemory s s1 ∧
            (s1.ctx u).status = .ready ∧ (s1.ctx u).pc = BitVec.ofNat 64 (at_ 8 8) ∧ (s1.ctx u).flights = [] ∧
            (∀ n, 0 < n → n < 64 → (s1.ctx u).g n = BitVec.ofNat 64 (at_ (256 + 8 * n) 8)) ∧
            (∀ n, n < 8 → (s1.ctx u).k n = BitVec.ofNat 128 (at_ (768 + 16 * n) 16)) ∧
            (∀ n, n < 32 → (s1.ctx u).v n = BitVec.ofNat 1024 (at_ (1024 + 128 * n) 128)) ∧
            (s1.ctx u).trap.cause = BitVec.ofNat 6 (at_ 80 8) ∧ (s1.ctx u).trap.epc = BitVec.ofNat 17 (at_ 88 8) ∧
            (s1.ctx u).trap.einfo = BitVec.ofNat 64 (at_ 96 8) ∧ (s1.ctx u).sys.bkey = BitVec.ofNat 56 (at_ 160 8) ∧
            (s1.ctx u).sys.fflags = BitVec.ofNat 7 (at_ 184 8)))))

/-- R404 to R407: ENGRD reads a word of an item of a unit of the tile's engines, as ENGWR has overlaid it; ENGWR writes the words of a held
unit's items and no other's, and its command 1 holds a unit; one that does not exist reads 0 and ignores it. QUOINRD reads a quoin entry, 0
where it is free. KLOAD loads or clears a key slot of its actors; it gives 1 for a bad operand and 2 where the keys are locked, and waits
while requests of the slot are open. -/
def Obligations.EngineStateIsReadAndWritten : Prop :=
  ∀ (o : Opnd) (s : State), s.me.trap.ts.priv = true →
    let t := s.cur.tile
    let a := (s.rg o.a.toNat).toNat
    let b := s.rg o.b.toNat
    let e := a % 256
    let u := a / 2 ^ 8 % 256
    let i := a / 2 ^ 16 % 256
    let w := a / 2 ^ 24 % 65536
    let key := ((e * 256 + u) * 256 + i) * 65536 + w
    let useR : Use := .g [o.a.toNat] [o.d.toNat]
    let useW : Use := .g [o.a.toNat, o.b.toNat] []
    let useK : Use := .g [o.a.toNat, o.b.toNat] [o.d.toNat]
    let gives (i : Instr) (use : Use) (s1 : State) (x : Word) : Prop :=
      exec i s = completes o .none s ((s1.lg o.d.toNat (.word x) o.len).consume s.cur use)
    let writes (s1 : State) : Prop := exec (.engwr o) s = completes o .none s (s1.consume s.cur useW)
    let slot := a % 1024
    let n := a / 2 ^ 10 % 128
    let actors := if n = 127 then List.range 96 else [n]
    let block := (s.rg o.b.toNat).toNat
    let loads (v : Option (BitVec 512)) : Prop :=
      (s.keyBusy slot n = true → exec (.kload o) s = waits s s (.keyLoad slot n)) ∧
      (s.keyBusy slot n = false → ∃ s1, gives (.kload o) useK s1 0 ∧ (∀ m ∈ actors, (s1.actor m).keys.find slot = v) ∧
        (∀ m k, m ∉ actors ∨ k ≠ slot → (s1.actor m).keys.find k = (s.actor m).keys.find k) ∧
        keepsMemory s s1 ∧ keepsRegisters s s1 s.cur [] ∧ keepsSpecial s s1 ∧ keepsEngines s s1)
    (s.mayRun useR →
      (e ≠ 9 → e ≠ 0xB → e ≠ 0xD → i ≠ 0xFF → e ≠ 1 ∨ u < 0x40 ∨ 0x80 ≤ u → ∀ ws, s.itemWords t e u i = some ws → w < ws.length →
        gives (.engrd o) useR s ((s.myTile.eng.written.find key).getD (ws.getD w 0))) ∧
      (e ≠ 9 → e ≠ 0xB → e ≠ 0xD → i ≠ 0xFF → s.itemWords t e u i = none → e ≠ 1 ∨ u < 0x40 ∨ 0x80 ≤ u → gives (.engrd o) useR s 0) ∧
      (e = 0xB → u = 0 → i = 0 → w < 256 → gives (.engrd o) useR s (s.myTile.clk.trace.get 0 w)) ∧
      (i = 0xFF → unitExists e u = false → gives (.engrd o) useR s 0) ∧
      (i = 0xFF → unitExists e u = true → ∃ x, gives (.engrd o) useR s x ∧
        x.getLsbD 0 = ((if e = 9 ∨ e = 0xD then s.moduleHeld e u else s.unitHeld t e u) || (s.withheldId t e u).isSome) ∧
        x.getLsbD 1 = (s.withheldId t e u).isSome) ∧
      (s.myTile.eng.quoins.find (a % 32) = none → gives (.quoinrd o) useR s 0) ∧
      (∀ q, s.myTile.eng.quoins.find (a % 32) = some q → q.len < 2 ^ 21 → q.core < 4 → q.issuer < 4 → q.engine < 256 → q.chan < 256 → ∃ x, gives (.quoinrd o) useR s x ∧
        (a / 32 % 2 = 0 → x.extractLsb' 0 20 = BitVec.ofNat 20 q.base ∧ x.extractLsb' 20 21 = BitVec.ofNat 21 q.len ∧
          x.extractLsb' 41 3 = BitVec.ofNat 3 q.space.code ∧ x.extractLsb' 44 2 = BitVec.ofNat 2 q.core ∧ x.getLsbD 46 = q.dst ∧
          x.getLsbD 47 = true ∧ x.extractLsb' 48 2 = BitVec.ofNat 2 q.issuer) ∧
        (a / 32 % 2 = 1 → x.extractLsb' 0 8 = BitVec.ofNat 8 q.engine ∧ x.extractLsb' 8 8 = BitVec.ofNat 8 q.chan ∧ x.extractLsb' 32 32 = q.ident))) ∧
    (s.mayRun useW →
      (e ≠ 9 → e ≠ 0xB → e ≠ 0xD → i ≠ 0xFF → ∀ ws, s.itemWords t e u i = some ws →
        (s.unitHeld t e u = true → w < ws.length → ∃ s1, writes s1 ∧
          s1.myTile.eng.written.find key = some b ∧ (∀ k, k ≠ key → s1.myTile.eng.written.find k = s.myTile.eng.written.find k) ∧
          keepsMemory s s1 ∧ keepsRegisters s s1 s.cur [] ∧ keepsSpecial s s1 ∧ keepsOutside s s1) ∧
        (s.unitHeld t e u = false ∨ ws.length ≤ w → writes s)) ∧
      (i = 0xFF → unitExists e u = false → writes s) ∧
      (i = 0xFF → unitExists e u = true → b.extractLsb' 0 8 = 1 → ∃ s1, writes s1 ∧
        (if e = 9 ∨ e = 0xD then s1.moduleHeld e u else s1.unitHeld t e u) = true ∧
        keepsMemory s s1 ∧ keepsRegisters s s1 s.cur [] ∧ keepsSpecial s s1)) ∧
    (s.mayRun useK →
      (a / 2 ^ 18 ≠ 0 ∨ (96 ≤ n ∧ n ≠ 127) → gives (.kload o) useK s 1) ∧
      (a / 2 ^ 18 = 0 → n < 96 ∨ n = 127 → s.me.granted = false →
        (s.plat.root.keysLocked = true → gives (.kload o) useK s 2) ∧
        (s.plat.root.keysLocked = false →
          (a / 2 ^ 17 % 2 = 1 → loads none) ∧
          (a / 2 ^ 17 % 2 = 0 → 0x100000 ≤ block → exec (.kload o) s = traps o s .spaceRange (infoM block 0 3 false)) ∧
          (a / 2 ^ 17 % 2 = 0 → block + 64 ≤ 0x100000 → block % 64 = 0 → s.quoinFault t s.cur.core .t block 64 false = none →
            s.badLocal t s.cur.core .t s.myKey block 64 = none →
            loads (some (BitVec.ofNat 512 (s.readLocal t s.cur.core .t s.myKey block 64)))))))

/-- R393, R398 to R400: QLOAD reads a galley's or a slot's state; QMAP maps a galley to a slot, with 1 where the slot is mapped, 2 where the
galley is, 3 where its control block is bad; QSAVE writes head, tail, age and slot into the control block; QUNMAP does so and frees the
slot, and waits while the slot's records are not all taken. The two give 1 for an unmapped slot, and wait for accesses of the context that
are not performed and for an acceptance that waits for its record or that a fault holds. -/
def Obligations.GalleysAreMappedSavedAndUnmapped : Prop :=
  ∀ (o : Opnd) (s : State), s.me.trap.ts.priv = true →
    let a := (s.rg o.a.toNat).toNat
    let r := a % 128
    let g := (s.rg o.b.toNat).toNat % 4096
    let y := s.ageGalleys
    let useR : Use := .g [o.a.toNat] [o.d.toNat]
    let useM : Use := .g [o.a.toNat, o.b.toNat] [o.d.toNat]
    let gives (i : Instr) (use : Use) (s1 : State) (x : Word) : Prop :=
      exec i s = completes o .none s ((s1.lg o.d.toNat (.word x) o.len).consume s.cur use)
    let owed := s.me.acks ≠ 0 ∨ s.awaitsOutside s.cur = true
    let k := s.slotAt r
    let e := y.galley k.galley
    let block := s.galleys.tableBase + 128 * k.galley
    let saves (s1 : State) : Prop := s1.now = s.now ∧ keepsRegisters s s1 s.cur [] ∧ keepsSpecial s s1 ∧
      (∀ z c sp m, (s1.localMem z c sp).bytes.read m = (s.localMem z c sp).bytes.read m) ∧
      ∀ p key, s.keyPair block 0 = some key → s.galleys.tableBase % 128 = 0 → s.dram.keyOf.find (block / 128) = some key →
        s1.dram.read key (block + 20) 4 = e.head.toNat ∧ s1.dram.read key (block + 24) 4 = e.tail.toNat ∧
        s1.dram.read key (block + 28) 1 = e.age.toNat ∧ s1.dram.read key (block + 7) 1 = r ∧
        (p ≠ block + 7 → p < block + 20 ∨ block + 29 ≤ p → s1.dram.bytes.read p = s.dram.bytes.read p)
    (s.mayRun useR →
      (a / 2 ^ 12 % 2 = 1 → a / 2 ^ 7 % 32 = 0 → k.mapped = false → gives (.qload o) useR y (2 ^ 28 : Word)) ∧
      (∀ n, (a / 2 ^ 12 % 2 = 0 ∧ n = a % 4096) ∨ (a / 2 ^ 12 % 2 = 1 ∧ a / 2 ^ 7 % 32 = 0 ∧ k.mapped = true ∧ n = k.galley) → n < 4096 →
        ∃ x, gives (.qload o) useR y x ∧ x.extractLsb' 0 12 = BitVec.ofNat 12 n ∧
          x.extractLsb' 12 5 = BitVec.ofNat 5 (min ((y.galley n).prio.toNat + (y.galley n).age.toNat) (y.galley n).cap.toNat) ∧
          x.extractLsb' 17 8 = (y.galley n).age ∧ x.getLsbD 25 = (y.galley n).pending ∧ x.getLsbD 26 = (y.galley n).mapped ∧
          x.getLsbD 27 = ((y.galley n).head == (y.galley n).tail)) ∧
      (k.mapped = false → gives (.qsave o) useR y 1 ∧ gives (.qunmap o) useR y 1) ∧
      (k.mapped = true → owed → exec (.qsave o) s = waits s y (.fence 2 0) ∧ exec (.qunmap o) s = waits s y (.fence 2 0)) ∧
      (k.mapped = true → ¬owed → (k.pendRec ≠ none ∨ k.fault ≠ none) → exec (.qsave o) s = waits s y (.galley r) ∧
        exec (.qunmap o) s = waits s y (.galley r)) ∧
      (k.mapped = true → ¬owed → k.pendRec = none → k.fault = none →
        (∃ s1, gives (.qsave o) useR s1 0 ∧ saves s1 ∧ s1.galleys = y.galleys) ∧
        (y.slotRecords r = [] → ∃ s1, gives (.qunmap o) useR s1 0 ∧ saves s1 ∧ (s1.slotAt r).mapped = false ∧
          (s1.galley k.galley).mapped = false ∧ (e.head ≠ e.tail → (s1.galley k.galley).pending = true)) ∧
        (y.slotRecords r ≠ [] → ∃ s1, exec (.qunmap o) s = waits s s1 (.galley r) ∧ saves s1 ∧ (s1.slotAt r).unmapping = true))) ∧
    (s.mayRun useM →
      (k.mapped = true → gives (.qmap o) useM y 1) ∧
      (k.mapped = false → (y.galley g).mapped = true → gives (.qmap o) useM y 2) ∧
      (k.mapped = false → (y.galley g).mapped = false → ∀ v, s.tableRead (s.galleys.tableBase + 128 * g) 128 = .ok v →
        (blockBad v (r / 32) = true ∨ (y.galley g).en = false → gives (.qmap o) useM y 3) ∧
        (blockBad v (r / 32) = false → (y.galley g).en = true → ∃ s1, gives (.qmap o) useM s1 0 ∧
          (s1.galley g).mapped = true ∧ (s1.galley g).slot = BitVec.ofNat 7 r ∧ (s1.slotAt r).mapped = true ∧ (s1.slotAt r).galley = g ∧
          (s1.slotAt r).stopped = k.stopped ∧
          (s1.slotAt r).ring = v / 2 ^ 64 % 2 ^ 64 ∧ (s1.slotAt r).rsize = v / 2 ^ 128 % 256 ∧ (s1.slotAt r).chase = v / 2 ^ 32 % 65536 ∧
          keepsMemory s s1 ∧ keepsRegisters s s1 s.cur [] ∧ keepsSpecial s s1 ∧ keepsEngines s s1)))

/-- R383, R413 to R424, R437, R439: FMLOAD loads a placement into the shadow planes of a chase, FMDRAIN drains it, FMSWAP makes the loaded
placement run and FMCLEAR drops it. A control block that is not aligned traps ALIGN; one that is not valid gives 1, a chase at work 4;
FMLOAD gives 3 with a placement loaded, FMSWAP 2 with none and 3 before the drain is complete, FMCLEAR 2 with none, and FMDRAIN 5 for a bad
operand. TAGBIND binds a tag of a running forme to a tile of the module, or unbinds it; it gives 1 for a tag of no running forme, 2 for a
tile that cannot hold it and 3 for a bad operand. MIGRATE gives its refusal, or orders a migration and completes with its answer in flight,
which comes with the migration's end. CLKPLAN loads a plan of bands, and gives 1 for a bad plan and 2 for one that bars every step. -/
def Obligations.FormesLoadSwapAndTagsBind : Prop :=
  (∀ (o : Opnd) (s : State), s.me.trap.ts.priv = true →
      let u := s.cur
      let t := u.tile
      let a := (s.rg o.a.toNat).toNat
      let b := (s.rg o.b.toNat).toNat
      let ccb := a / 256 * 256
      let n := (s.nameChase ccb).2
      let y := (s.nameChase ccb).1
      let use1 : Use := .g [o.a.toNat] [o.d.toNat]
      let use2 : Use := .g [o.a.toNat, o.b.toNat] [o.d.toNat]
      let gives (i : Instr) (use : Use) (s1 : State) (x : Word) : Prop :=
        exec i s = completes o .none s ((s1.lg o.d.toNat (.word x) o.len).consume s.cur use)
      let misaligned (i : Instr) : Prop := a % 256 ≠ 0 → exec i s = traps o s .align (infoM a 4 3 false)
      let turned (i : Instr) (use : Use) : Prop :=
        (s.ccbValid ccb = false → gives i use s 1) ∧ (s.ccbValid ccb = true → s.chaseBusy n u = true → gives i use s 4)
      let free := s.ccbValid ccb = true ∧ s.chaseBusy n u = false
      (s.mayRun use2 →
        misaligned (.fmload o) ∧ misaligned (.fmdrain o) ∧
        (a % 256 = 0 →
          (b % 4 = 3 ∨ b / 4 % 1024 ≠ 0 → exec (.fmload o) s = traps o s .align (infoM b 4 3 false)) ∧
          turned (.fmdrain o) use2 ∧
          (b % 4 ≠ 3 → b / 4 % 1024 = 0 → turned (.fmload o) use2) ∧
          (free → b % 4 ≠ 3 → b / 4 % 1024 = 0 →
            ((y.chase n).loaded ≠ none → gives (.fmload o) use2 y 3) ∧
            (∀ k, y.formeLoad t n ccb (b / 4096 * 4096) (2 ^ (b % 4)) = .status k → gives (.fmload o) use2 y (BitVec.ofNat 64 k)) ∧
            (∀ c e, y.formeLoad t n ccb (b / 4096 * 4096) (2 ^ (b % 4)) = .act (.trap c e) → exec (.fmload o) s = traps o s c e) ∧
            (∀ s1, y.formeLoad t n ccb (b / 4096 * 4096) (2 ^ (b % 4)) = .loaded s1 → gives (.fmload o) use2 s1 0 ∧
              (∃ c, (s1.chase n).loaded = some c ∧ c.file = b / 4096 * 4096 ∧ c.fold = 2 ^ (b % 4)) ∧
              (s1.chase n).run = (s.chase n).run ∧ keepsMemory s s1 ∧ keepsRegisters s s1 u [] ∧ keepsSpecial s s1)) ∧
          (free →
            (4 ≤ b → gives (.fmdrain o) use2 y 5) ∧
            (b < 4 → y.chaseDrained n = true →
              (b % 2 = 0 → ∃ s1, gives (.fmdrain o) use2 s1 0 ∧ (s1.chase n).work = .none ∧ keepsMemory s s1 ∧ keepsRegisters s s1 u [] ∧
                keepsSpecial s s1) ∧
              (b % 2 = 1 → ∃ s1 k, gives (.fmdrain o) use2 s1 (BitVec.ofNat 64 (2 ^ 32 * k)) ∧ (s1.chase n).work = .none ∧
                (∀ z ∈ y.runTiles n, ∀ p, (s1.inPort z p).strays = []) ∧ keepsMemory s s1 ∧ keepsRegisters s s1 u [] ∧ keepsSpecial s s1)) ∧
            (b < 4 → y.chaseDrained n = false → (y.startDrain n (b / 2 % 2 == 1)).chaseDrained n = false → ∃ s1,
              exec (.fmdrain o) s = waits s s1 .drain ∧ (s1.chase n).work = .drain (b % 2 == 1) (b / 2 % 2 == 1))))) ∧
      (s.mayRun use1 →
        misaligned (.fmclear o) ∧ turned (.fmswap o) use1 ∧ (a % 256 = 0 → turned (.fmclear o) use1) ∧
        (a % 256 = 0 → free →
          ((y.chase n).loaded = none → gives (.fmclear o) use1 y 2) ∧
          ((y.chase n).loaded ≠ none → ∃ s1, gives (.fmclear o) use1 s1 0 ∧ (s1.chase n).loaded = none ∧
            (s1.chase n).run = (s.chase n).run ∧ (∀ z ∈ y.loadedTiles n, (s1.tile z).place.shadow = none) ∧
            keepsMemory s s1 ∧ keepsRegisters s s1 u [] ∧ keepsSpecial s s1)) ∧
        (free →
          ((y.chase n).loaded = none → gives (.fmswap o) use1 y 2) ∧
          (∀ c, (y.chase n).loaded = some c →
            (y.chaseDrained n = false → gives (.fmswap o) use1 y 3) ∧
            (y.chaseDrained n = true →
              (∀ g p seq, y.firstStray n = some (g, p, seq) →
                exec (.fmswap o) s = traps o s .formeStrayToken (BitVec.ofNat 64 (g.toNat + 2 ^ 24 * p + 2 ^ 32 * seq.toNat))) ∧
              (y.firstStray n = none → ∀ s1,
                y.chaseWrite t u.core ccb ((y.ccbGet ccb 72 8).getD 0) c.record.1 c.record.2 = (s1, .ok ()) → ∃ s2,
                gives (.fmswap o) use1 s2 0 ∧ (s2.chase n).run = some c ∧ (s2.chase n).loaded = none ∧
                ∀ p ∈ c.tiles, (s.tile p.tile).place.shadow ≠ none → (s2.tile p.tile).place.chase = some n ∧
                  (s2.tile p.tile).place.shadow = none)))))) ∧
  (∀ (o : Opnd) (s : State), s.me.trap.ts.priv = true →
      let u := s.cur
      let a := (s.rg o.a.toNat).toNat
      let g : Tag := (s.rg o.a.toNat).setWidth 24
      let b := (s.rg o.b.toNat).toNat
      let t := b / 256 % 256 * 160 + b % 256
      let p := (s.tile t).place
      let use1 : Use := .g [o.a.toNat] [o.d.toNat]
      let use2 : Use := .g [o.a.toNat, o.b.toNat] [o.d.toNat]
      let gives (i : Instr) (use : Use) (s1 : State) (x : Word) : Prop :=
        exec i s = completes o .none s ((s1.lg o.d.toNat (.word x) o.len).consume s.cur use)
      let header := s.readLocal u.tile 0 .t noKey a 8
      let count := header / 256 % 64
      let readable (k : Nat) : Prop := a + k ≤ 0x100000 ∧ s.quoinFault u.tile u.core .t a k false = none ∧ s.badLocal u.tile 0 .t noKey a k = none
      let band (i : Nat) : Nat × Nat :=
        (s.readLocal u.tile 0 .t noKey (a + 8 + 8 * i) 4, s.readLocal u.tile 0 .t noKey (a + 12 + 8 * i) 4)
      let bands := (List.range count).map band
      let wrong := header % 256 ≠ 1 ∨ 32 < count ∨ header / 2 ^ 14 ≠ 0 ∨ ∃ i, i < count ∧ (band i).2 < (band i).1
      let zone (n : Nat) : Bool := ((s.ccbGet (s.ccbOf n) 32 8).getD 0) / 2 ^ 25 % 2 == 1
      let busy (n : Nat) : Prop := s.migrating n = true ∨ (s.chase n).work ≠ .none ∨ (s.chase n).struck = true
      let orders (n : Nat) (q : Placed) (d : Nat) : Prop := ∃ s1,
        exec (.migrate o) s = completes o .none s ((s1.lg o.d.toNat (.migration n) o.len).consume s.cur use2) ∧ (s1.rebal n).migration =
          some { step := 1, src := q.tile, dst := d, tag := g, debts := [], sent := [], seams := [], by_ := some (u.tile, u.core, u.ctx) } ∧
        keepsMemory s s1 ∧ keepsRegisters s s1 u [] ∧ keepsSpecial s s1
      (s.mayRun use2 →
        (2 ^ 17 ≤ b → gives (.tagbind o) use2 s 3) ∧
        (b < 2 ^ 17 → s.chaseOfTag g = none → gives (.tagbind o) use2 s 1) ∧
        (b < 2 ^ 17 → ∀ n, s.chaseOfTag g = some n →
          (2 ^ 16 ≤ b → ∃ s1, gives (.tagbind o) use2 s1 0 ∧ s1.tileOf g = none ∧ (∀ h, h ≠ g → s1.tileOf h = s.tileOf h) ∧
            keepsMemory s s1 ∧ keepsRegisters s s1 u [] ∧ keepsSpecial s s1 ∧ keepsEngines s s1) ∧
          (b < 2 ^ 16 → p.live = false ∨ 160 ≤ b % 256 ∨ 162 ≤ b / 256 ∨ (∃ m, p.chase = some m ∧ m ≠ n) → gives (.tagbind o) use2 s 2) ∧
          (b < 2 ^ 16 → p.live = true → b % 256 < 160 → b / 256 < 162 → (∀ m, p.chase = some m → m = n) → ∃ s1,
            gives (.tagbind o) use2 s1 0 ∧ s1.tileOf g = some t ∧ (∀ h, h ≠ g → s1.tileOf h = s.tileOf h) ∧
            (s1.tile t).place.chase = some n ∧ (s1.tile t).place.member = g ∧
            keepsMemory s s1 ∧ keepsRegisters s s1 u [] ∧ keepsSpecial s s1)) ∧
        (2 ^ 17 ≤ b → gives (.migrate o) use2 s 6) ∧
        (b < 2 ^ 17 → s.myTile.place.chase = none → gives (.migrate o) use2 s 1) ∧
        (b < 2 ^ 17 → ∀ n, s.myTile.place.chase = some n →
          (s.memberOf n g = none ∨ s.runOf n = none → gives (.migrate o) use2 s 1) ∧
          ∀ q run, s.memberOf n g = some q → s.runOf n = some run →
            (run.pinned q.actor = true → gives (.migrate o) use2 s 2) ∧
            (run.pinned q.actor = false → busy n → gives (.migrate o) use2 s 4) ∧
            (run.pinned q.actor = false → ¬busy n →
              (b < 2 ^ 16 → 160 ≤ b % 256 ∨ s.isDestination n q.tile (zone n) t = false → gives (.migrate o) use2 s 3) ∧
              (2 ^ 16 ≤ b → s.destination n q.tile (zone n) = none → gives (.migrate o) use2 s 3) ∧
              (b < 2 ^ 16 → b % 256 < 160 → s.isDestination n q.tile (zone n) t = true → orders n q t) ∧
              (∀ d, 2 ^ 16 ≤ b → s.destination n q.tile (zone n) = some d → orders n q d)))) ∧
      (s.mayRun use1 →
        (0x100000 ≤ a → exec (.clkplan o) s = traps o s .spaceRange (infoM a 0 3 false)) ∧
        (a + 8 ≤ 0x100000 → a % 8 ≠ 0 → exec (.clkplan o) s = traps o s .align (infoM a 0 3 false)) ∧
        (a % 8 = 0 → readable 8 → readable (8 + 8 * min count 32) →
          (wrong → gives (.clkplan o) use1 s 1) ∧
          (¬wrong → (∀ n, n < 32 → barredBy bands n = true) → gives (.clkplan o) use1 s 2) ∧
          (¬wrong → (∃ n, n < 32 ∧ barredBy bands n = false) → ∃ s1, gives (.clkplan o) use1 s1 0 ∧ planBands s1.myTile.clk.plan = bands ∧
            keepsMemory s s1 ∧ keepsRegisters s s1 u [] ∧ keepsSpecial s s1 ∧ keepsOutside s s1))))

/-! ## The whole machine -/

/-- R89, R134, R176, R180 to R184, R202, R244, R252, R285, R296, R298, R441, R444: What reset leaves where the spec gives a value. Every context
is free at user privilege with traps enabled, no trap register set and class 0 under a cap of 1; every counter and pending bit of a core is
0 and its frequency request 7; identifiers start from 1, the weights are 1, the clamp is 3,000 mA, no quire is enabled and the reference
time is 0. -/
def Obligations.ResetLeavesTheSpecifiedValues : Prop :=
  ∀ (u : Cur) (n : Nat),
    let s := State.reset
    let k := s.ctx u
    let c := s.core u.tile u.core
    let y := s.tile u.tile
    (k.status = .free ∧ k.trap.cause = 0 ∧ k.trap.epc = 0 ∧ k.trap.einfo = 0 ∧ k.trap.ksave.get 0 n = 0 ∧
      k.trap.ts = { priv := false, ppriv := false, te := true, intrap := false, pclass := 0, skip := false, nr := false, len := 0
                    notice := false, alloc := false, pd := false } ∧
      k.sys.cls = 0 ∧ k.sys.cap = 1 ∧ k.sys.fflags = 0 ∧ k.sys.mstat = 0 ∧ k.sys.ilock = 0 ∧ k.sys.fswitch = 0 ∧ k.g 0 = 0) ∧
    (c.tvec = 0 ∧ c.ktimer = 0 ∧ c.npend = 0 ∧ c.cyc = 0 ∧ c.evq.ready = [] ∧ c.evq.held = 0 ∧ c.freqReq = 7 ∧ c.mq.done = 1 ∧ c.mq.next = 1 ∧
      c.walker.nextId = 1 ∧ c.spa.isS32 = false ∧ c.spa.entries = []) ∧
    ((s.channel u.tile n).shadow.get 0 n = 0 ∧ (s.channel u.tile n).done = 1 ∧ (s.channel u.tile n).next = 1 ∧
      (s.quire u.tile n).en = false ∧ y.eng.arbiter.weights = [1, 1, 1, 1] ∧ y.port.mailIds.get 1 n = 1 ∧ y.clk.clamp = 3000 ∧ y.clk.step = 7) ∧
    s.now = 0 ∧ s.tags = [] ∧ s.net = [] ∧ s.plat.power.threshold = 95

/-- R31, R41, R45, R134: Where the bytes at the pc of the context that a core serves decode to an instruction, and neither a notice, nor a spent
budget of its or of a member of the gang that it leads, nor an error in the words, nor the end of the switch group comes before it, the step
carries that instruction out: `exec` of it, with that context under way in its switch group. A context whose switch group this interrupts is
ready. A core that single-steps halts behind it. The agenda, from which the step takes what comes next, is the model's own (log entry 5). -/
def Obligations.StepRunsTheDecodedInstruction : Prop :=
  ∀ (s : State) (t c : Nat) (u : Cur) (i : Instr) (n : Nat),
    let s1 := s.popDue.settle t
    s.model.agenda.head? = some (.issue t c) → s.popDue.coreRuns t c = true → s1.serveNotice t c = none → s1.next t c = some u →
    (∀ v ∈ s1.gangCtxs u, (s1.ctx v).spent = false) → (s1.ctx u).fetchFault = none → s1.badFetch u = none → decode (s1.wordsAt u) = .ok (i, n) → (s1.ctx u).words + n ≤ 32 →
    ∃ s2 : State, step s = exec i s2 ∧ s2.cur = u ∧ s2.me = { s1.ctx u with status := .running, waited := 0, started := true } ∧
      (s2.core u.tile u.core).issue.current = some u.ctx ∧
      (∀ v, v ≠ u → (∀ x, (s1.core u.tile u.core).issue.current = some x → v ≠ ⟨u.tile, u.core, x⟩) → s2.ctx v = s1.ctx v) ∧
      (∀ x, (s1.core u.tile u.core).issue.current = some x → x ≠ u.ctx → (s1.ctx ⟨u.tile, u.core, x⟩).status = .running →
        (s2.ctx ⟨u.tile, u.core, x⟩).status = .ready) ∧ keepsMemory s1 s2 ∧
      keepsRegisters s1 s2 u [] ∧ keepsEngines s1 s2 ∧ keepsOutside s1 s2 ∧
      ((s1.core t c).issue.stepping = true → (s2.core t c).issue.halted = true)

/-- R41, R42, R45, R47, R52, R106, R137, R185, R187: In a core's turn a due notice comes first; an odd pc traps CODE_ALIGN and one beyond X
traps SPACE_RANGE; words in an uncorrectable unit trap LOCAL_ECC, and words that do not decode with the cause that the decoder names; an
instruction that would take the switch group past 32 words is not issued, and its context goes to the back of its rotation. One that names a
register whose result is in flight stalls, and the cycles that pass until it is carried out are counted in `%ilock`. The agenda, from which
the step takes what comes next, is the model's own (log entry 5). -/
def Obligations.NoticesFetchFaultsAndStallsComeFirst : Prop :=
  (∀ (s : State) (t c : Nat),
    let s1 := s.popDue.settle t
    s.model.agenda.head? = some (.issue t c) → s.popDue.coreRuns t c = true →
      (∀ s2, s1.serveNotice t c = some s2 → step s = .next s2) ∧
      (s1.serveNotice t c = none → ∀ u, s1.next t c = some u → (∀ v ∈ s1.gangCtxs u, (s1.ctx v).spent = false) →
        let s2 := (s1.stepHalt t c).beginGroup u
        let k := s1.ctx u
        (k.pc.toNat % 2 = 1 → step s = .next (s2.raise u .codeAlign (k.pcFrom.getD 0) 0)) ∧
        (k.pc.toNat % 2 = 0 → 0x20000 ≤ k.pc.toNat → step s = .next (s2.raise u .spaceRange (k.pcFrom.getD 0) 0)) ∧
        (∀ x, k.pc.toNat % 2 = 0 → k.pc.toNat < 0x20000 → s1.badFetch u = some x →
          step s = .next (s2.raise u .localEcc (infoM x Space.x.code 1 false) 0)) ∧
        (k.pc.toNat % 2 = 0 → k.pc.toNat < 0x20000 → s1.badFetch u = none →
          (∀ info, decode (s1.wordsAt u) = .error (.prefixChain info) → step s = .next (s2.raise u .prefixChain info 0)) ∧
          (∀ info n, decode (s1.wordsAt u) = .error (.illegal info n) → step s = .next (s2.raise u .illegalEncoding info n)) ∧
          (∀ info n, decode (s1.wordsAt u) = .error (.reserved info n) → step s = .next (s2.raise u .reservedNonzero info n)) ∧
          (∀ i n, decode (s1.wordsAt u) = .ok (i, n) → 32 < k.words + n → ∃ s3 : State, step s = .next s3 ∧ (s3.ctx u).status = .ready ∧
            (s3.ctx u).sys = { k.sys with fswitch := k.sys.fswitch + 1 } ∧ (s3.ctx u).pc = k.pc ∧ (s3.ctx u).words = 0 ∧
            keepsMemory s s3 ∧ keepsRegisters s1 s3 u [])))) ∧
  ∀ (o : Opnd) (s : State), s.myTile.gangOf s.cur.core s.cur.ctx = none →
    let stalls (i : Instr) (use : Use) : Prop := s.me.blocked use = true →
      exec i s = .next (s.modMe fun k => { k with stalled := true })
    let useF : Use := if o.r then .g [o.a.toNat, o.b.toNat] [o.d.toNat] else .g [o.d.toNat, o.a.toNat] [o.d.toNat]
    (∀ i ∈ [Instr.add o, .sub o, .and o, .or o, .xor o, .mul o, .div o, .divz o, .rem o, .min o, .max o], stalls i useF) ∧
    (∀ i ∈ [Instr.ld o, .ldw o], stalls i (.g [o.a.toNat, o.b.toNat] [o.d.toNat])) ∧
    (∀ i ∈ [Instr.st o, .stw o], stalls i (.g [o.a.toNat, o.b.toNat, o.d.toNat] [])) ∧
    ∀ (k : Ctx) (n : Nat), k.stalled = true → (k.status = .ready ∨ k.status = .running) →
      (k.tick n).sys.ilock = k.sys.ilock + BitVec.ofNat 64 n

/-- R43 to R51: Words written out from the encoding tables of the spec decode to the instructions that they stand for. The record of operands is
the model's own form of an instruction. -/
def Obligations.WordsOfTheTableDecode : Prop :=
  let base : Opnd := { mark := false, p := false, fx := 0, m := none, r := false, ni := 0, d := 0, a := 0, b := 0, f := 0, x := 0, imm := 0 }
  decode [0x7529, 0x010D] = .ok (.sub { base with r := true, d := 20, a := 3, b := 41, f := 1 }, 2) ∧
  decode [0x73F4, 0x6166] = .ok (.blt { base with ni := 1, d := 5, a := 9, f := 2, imm := -12 }, 2) ∧
  decode [0x7C80, 0x7407, 0x700C, 0x315A] = .ok (.ld { base with m := some 0x080, r := true, ni := 1, d := 5, a := 6, b := 7, f := 2
                                                                 imm := 12 }, 4) ∧
  decode [0x4DD0] = .ok (.call { base with f := 1, imm := -48 }, 1) ∧
  decode [0xE500] = .ok (.endh { base with mark := true, x := 0x100 }, 1) ∧
  decode [0x7900, 0x7405, 0x4093] = .ok (.vcdot4 { base with p := true, r := true, d := 2, a := 4, b := 5, f := 3 }, 3) ∧
  decode [0x7B80, 0x2158] = .ok (.clkplan { base with p := true, d := 5, a := 6 }, 2)

/-- R43 to R51, R58: Decoding the words that encode a well-formed instruction gives the instruction, with every operand, and its length. -/
def Obligations.DecodeOfEncodeIsTheInstruction : Prop :=
  ∀ i : Instr, i.enc.isSome = true → i.wf = true → decode (encode i) = .ok (i, i.len)

/-- The memories of the module have their canonical form after reset. The canonical form is the model's own. -/
def Obligations.ResetMemoriesAreCanonical : Prop := State.reset.memoriesCanonical

/-- Every step keeps the canonical form of every memory: addresses rise, and no cell is listed with what an unlisted address reads as. The
canonical form is the model's own. -/
def Obligations.StepKeepsMemoriesCanonical : Prop :=
  ∀ s t : State, s.memoriesCanonical → step s = .next t → t.memoriesCanonical

/-! ## Steps that no word encodes -/

/-- R31, R41, R89, R133, R137, R175, R181, R185, R186, R191: The steps of a core beside its instructions. A sleeper wakes when its sleep is
over; a result writes its register, or is appended to the stream that the register is bound to; a switch group ends; a context ages; a
pending trap and a notice are entered; a spent budget traps; the timer fires; the registers that have steps of their own are written. When
each of these steps comes is the agenda's choice, which is the model's own (log entry 5). -/
def Obligations.CoresWakeReturnSwitchAndTakeNotices : Prop :=
  ∀ (u : Cur) (n : Nat) (v : Word) (s : State),
    let k := s.ctx u
    let c := s.core u.tile u.core
    let len := lenAt (s.tile u.tile).x k.pc.toNat
    let frame (t : State) (ds : List Dest) : Prop := keepsMemory s t ∧ keepsRegisters s t u ds
    (∀ d, k.waits = some (.sleep d) → (∃ x, d = some x ∧ x ≤ s.rtime u.tile) ∨ c.evq.ready ≠ [] →
      leadsTo (.sleepWake u.tile u.core u.ctx) s fun t => (t.ctx u).waits = none ∧ frame t [] ∧
        (k.loops = [] → (t.ctx u).pc = k.pc + BitVec.ofNat 64 (2 * len))) ∧
    (∀ f, k.flights[n]? = some f → (∀ e ∈ k.flights.take n, e.dest ≠ f.dest) →
      (∀ m w b, f.dest = .g m → f.value = .word w → (s.core u.tile u.core).binding u.ctx false m = some b → b.write = true →
        leadsTo (.resultReturn u.tile u.core u.ctx n) s fun t => (t.ctx u).flights = k.flights.eraseIdx n ∧ frame t [] ∧ keepsSpecial s t ∧
          ((t.core u.tile u.core).stream (unitOf false m)).bind = some (b.append (s.segLen u.tile b) ⟨w.toNat, none⟩)) ∧
      (∀ m w, m ≠ 0 → f.dest = .g m → f.value = .word w → s.appends u false m = false → leadsTo (.resultReturn u.tile u.core u.ctx n) s fun t =>
        (t.ctx u).g m = w ∧ (t.ctx u).flights = k.flights.eraseIdx n ∧ frame t [.g m] ∧ keepsSpecial s t) ∧
      (∀ m w, f.dest = .v m → f.value = .vec w → s.appends u true m = false → leadsTo (.resultReturn u.tile u.core u.ctx n) s fun t =>
        (t.ctx u).v m = w ∧ (t.ctx u).flights = k.flights.eraseIdx n ∧ frame t [.v m] ∧ keepsSpecial s t) ∧
      (∀ m w, f.dest = .k m → f.value = .mask w → leadsTo (.resultReturn u.tile u.core u.ctx n) s fun t =>
        (t.ctx u).k m = w ∧ (t.ctx u).flights = k.flights.eraseIdx n ∧ frame t [.k m] ∧ keepsSpecial s t)) ∧
    (c.issue.current = some u.ctx → k.status = .running → ∀ i m, decode (s.wordsAt u) = .ok (i, m) → 32 < k.words + m →
      leadsTo (.forcedSwitch u.tile u.core) s fun t => (t.ctx u).status = .ready ∧ (t.ctx u).words = 0 ∧ (t.ctx u).pc = k.pc ∧
        (t.ctx u).sys = { k.sys with fswitch := k.sys.fswitch + 1 } ∧ (t.core u.tile u.core).issue.current = none ∧ frame t []) ∧
    (k.status = .ready → k.waited = 65535 → leadsTo (.contextAged u.tile u.core u.ctx) s fun t => (t.ctx u).waited = 65536 ∧ frame t []) ∧
    (∀ p, k.pend = some p → k.flights = [] → k.trap.ts.te = true → (s.tile u.tile).gangOf u.core u.ctx = none →
      leadsTo (.trapEntry u.tile u.core u.ctx) s fun t => (t.ctx u).trap.cause = BitVec.ofNat 6 p.cause.code ∧ (t.ctx u).trap.einfo = p.info ∧
        (t.ctx u).trap.epc = p.epc.setWidth 17 ∧ (t.ctx u).trap.ts.intrap = true ∧ (t.ctx u).trap.ts.notice = false ∧
        (t.ctx u).pc = c.tvec.setWidth 64 ∧ (t.ctx u).pend = none ∧ frame t []) ∧
    (s.coreRuns u.tile u.core = true →
      let s1 := s.settle u.tile
      (∀ b cause, s1.boundTaker u.tile u.core = some (u, b) → causeOfBit b = some cause →
        leadsTo (.takeNotice u.tile u.core) s fun t => (t.ctx u).trap.cause = BitVec.ofNat 6 cause.code ∧
          (t.ctx u).trap.einfo = (s1.core u.tile u.core).ninfo.get 0 b ∧ (t.ctx u).trap.ts.notice = true ∧
          (t.core u.tile u.core).npend.getLsbD b = false) ∧
      ∀ b cause info, s1.boundTaker u.tile u.core = none → (s1.core u.tile u.core).dueNotice = some (b, cause, info) →
        ((s1.next u.tile u.core).filter s1.takes = some u → (s1.ctx u).flights ≠ [] →
          leadsTo (.takeNotice u.tile u.core) s fun t => (t.ctx u).status = .waiting (.notice b)) ∧
        ((s1.next u.tile u.core).filter s1.takes = some u → (s1.ctx u).flights = [] →
          leadsTo (.takeNotice u.tile u.core) s fun t => (t.ctx u).trap.cause = BitVec.ofNat 6 cause.code ∧ (t.ctx u).trap.einfo = info ∧
            (t.ctx u).trap.epc = (s1.ctx u).pc.setWidth 17 ∧ (t.ctx u).trap.ts.notice = true ∧ (t.ctx u).trap.ts.alloc = false ∧
            (t.core u.tile u.core).npend.getLsbD b = false ∧ (t.ctx u).pc = (s1.core u.tile u.core).tvec.setWidth 64) ∧
        ((s1.next u.tile u.core).filter s1.takes = none → ∀ x xs, s1.freeCtxs u.tile u.core = x :: xs →
          leadsTo (.takeNotice u.tile u.core) s fun t =>
            let a := t.ctx ⟨u.tile, u.core, x⟩
            a.trap.cause = BitVec.ofNat 6 cause.code ∧ a.trap.einfo = info ∧ a.trap.ts.notice = true ∧ a.trap.ts.alloc = true ∧
            (t.core u.tile u.core).npend.getLsbD b = false ∧ a.pc = (s1.core u.tile u.core).tvec.setWidth 64)) ∧
    (k.status ≠ .free → k.status ≠ .parked → k.trap.ts.priv = false → k.sys.hbudget = 0 → k.pend = none →
      leadsTo (.handlerBudget u.tile u.core u.ctx) s fun t =>
        t = s.raise u .handlerBudget (BitVec.ofNat 64 (k.budget0.toNat + 2 ^ 32 * k.waits.isSome.toNat)) len) ∧
    (c.ktimer.getLsbD 63 = true → c.ktimer.toNat % 2 ^ 63 ≤ s.rtime u.tile → leadsTo (.timer u.tile u.core) s fun t =>
      (t.core u.tile u.core).ktimer = c.ktimer &&& ~~~((1 : Word) <<< 63) ∧
      (t.core u.tile u.core).npend.getLsbD (noticeBit .timer) = true ∧
      (c.npend.getLsbD (noticeBit .timer) = false →
        (t.core u.tile u.core).ninfo.get 0 (noticeBit .timer) = BitVec.ofNat 64 (c.ktimer.toNat % 2 ^ 63)) ∧ frame t []) ∧
    (c.ktimer.getLsbD 63 = false → leadsTo (.timer u.tile u.core) s fun t => t = s) ∧
    (leadsTo (.ktimerWrite u.tile u.core u.ctx v) s fun t => (t.core u.tile u.core).ktimer = v ∧ frame t []) ∧
    (leadsTo (.npendClear u.tile u.core u.ctx v) s fun t =>
      (t.core u.tile u.core).npend = c.npend &&& ~~~(v &&& 0x800000000007FFFF) ∧ frame t []) ∧
    (leadsTo (.fmodeWrite u.tile u.core u.ctx v) s fun t =>
      (t.ctx u).sys = { k.sys with fmode := if 1 ≤ v.toNat % 8 ∧ v.toNat % 8 ≤ 4 then v.setWidth 3 else k.sys.fmode } ∧ frame t []) ∧
    (leadsTo (.freqLockWrite u.tile u.core u.ctx v) s fun t => (t.tile u.tile).clk.tcap = v.toNat / 2 ^ 15 % 32 ∧
      (v.getLsbD 26 = false → (t.tile u.tile).clk.lock = false ∧ (t.tile u.tile).clk.src = BitVec.ofNat 2 (v.toNat / 2 ^ 27) ∧
        (t.tile u.tile).clk.depth = 0 ∧ (t.tile u.tile).clk.hold = false) ∧ frame t [])

/-- R208, R210, R213 to R215, R219, R224, R225, R298, R301, R302, R308 to R314: The matrix unit's steps. The arbiter stays with a ready queue
while it has credit; a step performs its writes and counts; a token of MWLOAD goes from D to W; a completed command leaves its queue, adds
its flags to `%mstat` and delivers its record, those that the queue was rebuilt without first, as cancelled; an operand that is not
translated holds the command and tells its core, and one that cannot be read ends the command. The steps of the copy and stream engine. A
round performs its elements together or not at all: a translation fault voids it and holds the channel, a data error ends the transfer, and
bytes of host or peer memory that have not come leave it as it is (R369). A completed transfer leaves its channel and delivers its record,
those that the channel was rebuilt without first, as cancelled. A read stream reads its next element; a write stream commits a round, or
faults. When each of these steps comes is the agenda's choice (log entry 5). -/
def Obligations.MatrixCopyAndStreamStepsPerform : Prop :=
  (∀ (t c : Nat) (m : MCmd) (s : State),
      let q := (s.core t c).mq
      let a := (s.tile t).eng.arbiter
      (∀ s1, s.arbiterTurn t = (s1, some c) → q.active = some m → ∀ sp ws f, s.stepOf t c m q.pos = .ok sp ws f →
        leadsTo (.matrixStep t) s fun z =>
          (z.core t c).mq = { q with
            pos := q.pos + 1, flags := q.flags ||| f
            ending := if m.steps ≤ q.pos + 1 then some ⟨0, BitVec.ofNat 64 ((q.flags ||| f).toNat + 2 ^ 32 * (q.pos + 1))⟩ else none } ∧
          (ws = [] → keepsMemory s z) ∧ (∀ w, ws = [w] → sp = .w ∨ sp = .a ∨ sp = .c → z.readLocal t c sp m.bkey w.1 w.2.1 = w.2.2 % 256 ^ w.2.1) ∧
          (a.fresh = false → (s.core t a.cur).mq.ready = true → 0 < a.credit → c = a.cur ∧ (z.tile t).eng.arbiter.cur = c ∧
            (z.tile t).eng.arbiter.credit = a.credit - 1)) ∧
      (∀ va s1 v, s.loadToken t = some (c, m, va, (s1, .value v)) → leadsTo (.mwloadToken t) s fun z =>
        z.readLocal t c .w m.bkey (m.dd.toNat % 2 ^ 18 + 128 * q.pos) 128 = v % 256 ^ 128 ∧ (z.core t c).mq.pos = q.pos + 1 ∧
        (z.core t c).mq.cmds = q.cmds ∧ (z.tile t).eng.arbiter.loader = c) ∧
      (∀ f, q.dropped = [(m, f)] → s.bankRoom t m.tag m.quire 12 = true → leadsTo (.matrixCommandComplete t c) s fun z =>
        (z.core t c).mq = { q with dropped := [] } ∧
        (m.live = true → (z.ctx ⟨t, c, m.ctx⟩).sys.mstat = (s.ctx ⟨t, c, m.ctx⟩).sys.mstat ||| f.setWidth 64) ∧
        (m.event = true → (z.core t c).evq.ready = (s.core t c).evq.ready ++ [⟨5, BitVec.ofNat 8 c, 0x4000, m.ident, 0⟩]) ∧ keepsMemory s z) ∧
      (∀ rest e, q.dropped = [] → q.cmds = m :: rest → q.outcome = some e → s.bankRoom t m.tag m.quire 12 = true → leadsTo (.matrixCommandComplete t c) s fun z =>
        (z.core t c).mq.done = m.ident + 1 ∧ (z.core t c).mq.cmds = rest ∧ (z.core t c).mq.pos = 0 ∧ (z.core t c).mq.flags = 0 ∧
        (m.live = true → (z.ctx ⟨t, c, m.ctx⟩).sys.mstat = (s.ctx ⟨t, c, m.ctx⟩).sys.mstat ||| q.flags.setWidth 64) ∧
        (m.event = true → (z.core t c).evq = { (s.core t c).evq with
                                               ready := (s.core t c).evq.ready ++ [⟨5, BitVec.ofNat 8 c, e.status, m.ident, e.detail⟩]
                                               held := (s.core t c).evq.held - 1 }) ∧
        (m.event = false → (z.core t c).evq = (s.core t c).evq) ∧
        (∀ x ∈ (z.tile t).eng.quoins, ¬(x.2.issuer = c ∧ x.2.engine = 5 ∧ x.2.chan = c ∧ x.2.ident = m.ident)) ∧ keepsMemory s z) ∧
      (∀ va s1 k, s.loadToken t = some (c, m, va, (s1, .fault k)) → k.withholds = true →
        leadsTo (.matrixOperand t c) s fun z => (z.core t c).mq.fault = some (va, k) ∧ (z.core t c).mq.pos = q.pos ∧
          (z.core t c).npend.getLsbD 17 = true) ∧
      (∀ s1 f, s.arbiterTurn t = (s1, some c) → q.active = some m → s.stepOf t c m q.pos = .bad f → leadsTo (.matrixDataError t c) s fun z =>
        (z.core t c).mq.pos = q.pos ∧ keepsMemory s z ∧
        (z.core t c).mq.ending = some ⟨BitVec.ofNat 16 (0x8000 + f.cause.code), faultDetail f.va f.cause⟩ ∧
        (∀ n, f.cause.strikes = true → (s.tile t).place.chase = some n → (z.chases.get Chase.reset n).struck = true))) ∧
  ((∀ (t h : Nat) (s : State) (tr : Transfer) (rest : List Transfer),
      let k := s.channel t h
      let p := planOf tr.snap
      let stop := p.roundEnd k.pos
      let open_ := k.queue = tr :: rest ∧ k.held = false ∧ k.fault = none ∧ k.ending = none ∧ tr.cancel = false
      (open_ → ∀ s1 ws f, State.gatherRound t p tr h (stop - k.pos) k.pos s [] 0 = (s1, .ok (ws, f)) → leadsTo (.copyRound t h) s fun z =>
        (z.channel t h).pos = stop ∧ (z.channel t h).done = k.done ∧ (stop ≠ p.total → (z.channel t h).ending = none) ∧
        (stop = p.total → (z.channel t h).ending.isSome = true) ∧ (z.channel t h).queue.length = k.queue.length) ∧
      (open_ → ∀ s1, State.gatherRound t p tr h (stop - k.pos) k.pos s [] 0 = (s1, .error .pending) → leadsTo (.copyRound t h) s fun z =>
        z.channel t h = k ∧ keepsMemory s z) ∧
      (open_ → ∀ s1 e, State.gatherRound t p tr h (stop - k.pos) k.pos s [] 0 = (s1, .error (.fault e)) →
        (e.cause.withholds = true → leadsTo (.copyRoundVoid t h) s fun z => (z.channel t h).fault = some (e.va, e.cause) ∧
          (z.channel t h).pos = k.pos ∧ (z.channel t h).queue = { tr with voided := true } :: rest ∧
          (z.tile t).place.tasks.length = (s.tile t).place.tasks.length + 1 ∧ keepsMemory s z) ∧
        (e.cause.withholds = false → leadsTo (.copyDataError t h) s fun z => (z.channel t h).pos = k.pos ∧ (z.channel t h).queue = k.queue ∧
          (z.channel t h).ending = some ⟨BitVec.ofNat 16 (0x8000 + e.cause.code), faultDetail e.va e.cause⟩ ∧ keepsMemory s z)) ∧
      (k.dropped = [tr] → s.transferDue t h tr = true → leadsTo (.copyTransferComplete t h) s fun z =>
        z.channel t h = { k with dropped := [] } ∧ (p.ev = true → (z.core t tr.by_.core).evq.ready = (s.core t tr.by_.core).evq.ready ++
          [⟨1, BitVec.ofNat 8 h, 0x4000, tr.ident, 0⟩]) ∧ keepsMemory s z) ∧
      (∀ e, k.dropped = [] → k.queue = tr :: rest → k.outcome = some e → s.copyDue t h = true → leadsTo (.copyTransferComplete t h) s fun z =>
        (z.channel t h).done = tr.ident + 1 ∧ (z.channel t h).queue = rest ∧ (z.channel t h).pos = 0 ∧ (z.channel t h).ending = none ∧
        (p.ev = true → (z.core t tr.by_.core).evq.ready = (s.core t tr.by_.core).evq.ready ++
          [⟨1, BitVec.ofNat 8 h, e.status, tr.ident, e.detail⟩]) ∧
        (∀ x ∈ (z.tile t).eng.quoins, ¬(x.2.issuer = tr.by_.core ∧ x.2.engine = 1 ∧ x.2.chan = h ∧ x.2.ident = tr.ident)) ∧ keepsMemory s z)) ∧
    ∀ (t c n : Nat) (s : State) (b : Binding), s.bindingAt t c n = some b →
      let vector := decide (8 ≤ n)
      let at_ := (b.pat.addr b.next).toNat
      (b.reads vector = true → b.pat.seg = false →
        (b.pat.total ≤ b.next → leadsTo (.streamElementRead t c n) s fun z =>
          z.bindingAt t c n = some { b with ended := true, buf := b.buf ++ [.terminal] } ∧ keepsMemory s z) ∧
        (b.next < b.pat.total → ∀ s1 v, s.engineRead t b.pat.core b.pat.space b.bkey (streamHolder c n) at_ (b.pat.size vector) = (s1, .ok v) →
          leadsTo (.streamElementRead t c n) s fun z =>
            z.bindingAt t c n = some { b with next := b.next + 1, ended := decide (b.next + 1 = b.pat.total)
                                              buf := b.buf ++ .elem (b.extend vector v) :: b.pat.stopAfter b.next } ∧ keepsMemory s z)) ∧
      (s.commitDue t c n b = true →
        (∀ s1, State.roundReady t c n b b.open_.length b.next s = (s1, .ok ()) → leadsTo (.streamRoundCommit t c n) s fun z =>
          ∃ w, z.bindingAt t c n = some w ∧ w.open_ = [] ∧ w.next = b.next + b.open_.length) ∧
        (∀ s1 f, State.roundReady t c n b b.open_.length b.next s = (s1, .error f) → f.cause.withholds = true →
          leadsTo (.streamFault t c n) s fun z => keepsMemory s z ∧
            z.bindingAt t c n = some { b with fault := some (f.va, f.cause), voided := true } ∧
            (z.tile t).place.tasks.length = (s.tile t).place.tasks.length + 1)))

/-- R361, R396, R405: The control item of a unit. Hold stops the unit and release lets it go on; resume forgets the withheld access so that it
is retried; abandon ends its operation with the cause; cancel marks every queued operation to complete as cancelled. What ENGWR has written
to the unit takes effect first. That what was written takes effect first is the model's reading (log entry 27). -/
def Obligations.ControlItemsHoldResumeAbandonAndCancel : Prop :=
  ∀ (t h c : Nat) (gen : BitVec 32) (s : State), h < 8 → c < 4 →
    let y := s.applyWritten t 1 h
    let z := s.applyWritten t 5 c
    (∀ e u, leadsTo (.engHold t e u) s fun r => (if e = 9 ∨ e = 0xD then r.moduleHeld e u else r.unitHeld t e u) = true) ∧
    (∀ e u, e ≠ 7 → leadsTo (.engRelease t e u) s fun r => (if e = 9 ∨ e = 0xD then r.moduleHeld e u else r.unitHeld t e u) = false) ∧
    (leadsTo (.engResume t 1 h gen) s fun r => (r.channel t h).fault = none ∧ (r.channel t h).queue = (y.channel t h).queue) ∧
    (leadsTo (.engResume t 5 c gen) s fun r => (r.core t c).mq.fault = none ∧ (r.core t c).mq.cmds = (z.core t c).mq.cmds) ∧
    (∀ va k, (y.channel t h).fault = some (va, k) → leadsTo (.engAbandon t 1 h) s fun r => (r.channel t h).fault = none ∧
      ∃ e, (r.channel t h).ending = some e ∧ e.status = BitVec.ofNat 16 (0x8000 + Cause.copyFault.code)) ∧
    (∀ va k, (z.core t c).mq.fault = some (va, k) → leadsTo (.engAbandon t 5 c) s fun r => (r.core t c).mq.fault = none ∧
      ∃ e, (r.core t c).mq.ending = some e ∧ e.status = BitVec.ofNat 16 (0x8000 + Cause.matrixOperand.code)) ∧
    (leadsTo (.engCancel t 1 h) s fun r => (∀ x ∈ (r.channel t h).queue, x.cancel = true) ∧
      (r.channel t h).queue.length ≤ (y.channel t h).queue.length) ∧
    (leadsTo (.engCancel t 5 c) s fun r => (∀ m ∈ (r.core t c).mq.cmds, m.cancel = true) ∧
      (r.core t c).mq.cmds.length ≤ (z.core t c).mq.cmds.length)

/-- R234, R235, R237, R238, R240, R241, R245: The steps of the walkers. A dispatch starts an item in the lowest free context on the piece's next
index; the arbiter answers the oldest WNEXT claim, else the oldest steal request, of which a thief gets the second half; an answer makes the
piece the thief's; a walk notice is kept while fewer than four are; an idle walker asks the next victim; retired coordinates count at the
home, where the walk completes. When each of these steps comes is the agenda's choice (log entry 5). -/
def Obligations.WalkersDispatchStealAndReport : Prop :=
  ∀ (t c n : Nat) (s : State),
    let w := s.walker t c
    (∀ p x xs, w.piece = some p → w.saving = false → p.next < p.stop → p.flying.length < p.sig.limit → s.freeCtxs t c = x :: xs →
      s.stealAsked t c = none → w.claims = [] ∨ (∃ y l, w.claims = (y, true) :: l) → leadsTo (.walkerDispatch t c) s fun z =>
        let k := z.ctx ⟨t, c, x⟩
        (z.walker t c).piece = some (p.claim x) ∧ (z.walker t c).claims = w.claims.map (fun q => (q.1, false)) ∧ k.status = .ready ∧ k.handler = .item p.walk.toNat (some p.next) ∧
        k.pc = word p.sig.item ∧ k.sys.hbudget = BitVec.ofNat 32 p.sig.ibudget ∧ keepsMemory s z ∧ z.net = s.net) ∧
    (∀ x l wk i, w.saving = false → w.claims = (x, false) :: l → s.stealAsked t c = none → (s.ctx ⟨t, c, x⟩).handler = .item wk i →
      let u : Cur := ⟨t, c, x⟩
      let gives (index : Option Nat) (coord : Word) (left : Option Piece) : Prop := leadsTo (.walkerArbiterStep t c) s fun z =>
        (z.walker t c).claims = l ∧ (z.walker t c).piece = left ∧ (z.ctx u).handler = .item wk index ∧ keepsMemory s z ∧ z.net = s.net ∧
        ((s.core t c).binding x false (s.nextReg u).1 = none → (s.tile t).gangOf c x = none →
          (z.ctx u).flights = (s.ctx u).flights ++ [⟨.g (s.nextReg u).1, .word coord, (s.ctx u).pc, (s.nextReg u).2⟩] ∧
          ((z.ctx u).status = .ready ∨ (z.ctx u).status = .parked))
      (∀ p, w.piece = some p → p.next < p.stop →
        (p.flying.length < p.sig.limit → gives (some p.next) (p.sig.coord p.next) (some (p.claim x))) ∧
        (p.sig.limit ≤ p.flying.length → leadsTo (.walkerArbiterStep t c) s fun z => z = s)) ∧
      ((∀ p, w.piece = some p → p.stop ≤ p.next) → gives none (BitVec.allOnes 64) w.piece)) ∧
    (∀ i r, s.stealAsked t c = some (i, r) → w.claims = [] → s.dispatchCtx t c = none →
      let e := (s.tile t).port
      let answers (status : Nat) (piece : Option Piece) (left : Option Piece) : Prop := leadsTo (.walkerArbiterStep t c) s fun z =>
        z.net = s.net.eraseIdx i ++ [.stealAnswer r.tile r.thief.core r.by_ status piece] ∧ (z.walker t c).piece = left ∧ keepsMemory s z
      (e.held = true ∨ e.frozen = true ∨ w.saving = true → answers 3 none w.piece) ∧
      (e.held = false → e.frozen = false → w.saving = false →
        (w.piece = none → answers 1 none none) ∧
        (∀ p, w.piece = some p →
          (∀ q, r.walk = some q → q ≠ (p.home, p.walk) → answers 1 none w.piece) ∧
          ((∀ q, r.walk = some q → q = (p.home, p.walk)) →
            (p.sig.admits r.thief.tag = false → answers 4 none w.piece) ∧
            (p.sig.admits r.thief.tag = true → p.stop < p.next + 2 → answers 2 none w.piece) ∧
            (p.sig.admits r.thief.tag = true → p.next + 2 ≤ p.stop →
              let mid := p.next + (p.stop - p.next + 1) / 2
              answers 0 (some { p with thief := true, next := mid, retired := 0, freed := 0, flying := [], ecc := none })
                (some { p with stop := mid })))))) ∧
    (∀ by_ status p, s.net[n]? = some (.stealAnswer t c by_ status p) → leadsTo (.stealAnswerArrival n) s fun z =>
      z.net = s.net.eraseIdx n ∧ (z.walker t c).asking = none ∧ keepsMemory s z ∧
      (∀ q, p = some q → (z.walker t c).piece = some (s.ownCopy t q)) ∧ (p = none → (z.walker t c).piece = w.piece) ∧
      ∀ x, by_ = some x → (s.ctx ⟨t, c, x⟩).waits = some .steal →
        (z.walker t c).answer.find x = some (word (status + 256 * (match p with | some q => q.stop - q.next | none => 0)))) ∧
    (∀ m, s.net[n]? = some (.walkNotice t c m) → leadsTo (.walkNotice n) s fun z => z.net = s.net.eraseIdx n ∧
      (w.notices.length < 4 → (z.walker t c).notices = w.notices ++ [m]) ∧ (4 ≤ w.notices.length → (z.walker t c).notices = w.notices) ∧
      keepsMemory s z) ∧
    (∀ m v y, s.autoSteal t c = some m → (s.victims ⟨s.tileTag t, c⟩ m)[m.tried]? = some v → s.tileOf v.tag = some y →
      leadsTo (.autoStealRequest t c) s fun z => (z.walker t c).asking = some none ∧ keepsMemory s z ∧
        z.net = s.net ++ [.stealAsk y v.core { thief := ⟨s.tileTag t, c⟩, tile := t, by_ := none, walk := some (m.home, m.walk) }]) ∧
    ∀ home walk k f ecc, s.net[n]? = some (.retire t home walk k f ecc) → leadsTo (.retirementReport n) s fun z =>
      let h := s.walker t home.core
      let at_ := z.walker t home.core
      z.net = s.net.eraseIdx n ∧ keepsMemory s z ∧ (∀ v ∈ h.open_, v.walk ≠ walk → v ∈ at_.open_) ∧
      ((∀ v ∈ h.open_, v.walk = walk → v.retired + k ≠ v.total) → ∀ v ∈ h.open_, v.walk = walk →
        { v with retired := v.retired + k, freed := v.freed + f, ecc := v.ecc <|> ecc } ∈ at_.open_) ∧
      ((∃ v ∈ h.open_, v.walk = walk ∧ v.retired + k = v.total) → ∀ v ∈ at_.open_, v.walk ≠ walk)

/-- R34, R316, R319, R322 to R325, R328, R420, R474: The steps of the ports. A token joins the queue of its port behind those sent before it, or
leaves by a link; one whose tag has moved away is counted. A slot comes back to its output port. A ready group starts a firing; a group of
colophons steps; a tile with all its proof marks copies its state to D and sends the marks on. When each of these steps comes is the
agenda's choice (log entry 5), and the number of a link's tag is the model's (log entry 15). -/
def Obligations.PortsQueueFireAndStep : Prop :=
  ∀ (t n : Nat) (s : State),
    let e := (s.tile t).port
    (∀ g p k, s.net[n]? = some (.token t g p k) →
      (earlierToken s.net n g p = true → leadsTo (.tokenArrival n) s fun z => z = s) ∧
      (earlierToken s.net n g p = false →
        (∀ l, Tag.linkOf g = some l →
          let bytes := bytesOfNat 16 (k.header g p) ++ bytesOfNat 128 k.body
          ((s.link l).takes = false ∨ s.linkHeld l = true → leadsTo (.tokenArrival n) s fun z => z.net = s.net.eraseIdx n ∧
            (z.link l).waiting = (s.link l).waiting ++ [bytes] ∧ keepsMemory s z) ∧
          ((s.link l).takes = true → s.linkHeld l = false → leadsTo (.tokenArrival n) s fun z => z.net = s.net.eraseIdx n ∧
            z.link l = (s.link l).transmit bytes ∧ keepsMemory s z)) ∧
        (Tag.linkOf g = none → Tag.kind g ≠ 3 → (s.tile t).place.live = true →
          (s.tileOf g = some t → leadsTo (.tokenArrival n) s fun z => z.net = s.net.eraseIdx n ∧
            (z.inPort t p).queue = (s.inPort t p).queue ++ [k] ∧ (∀ q, q ≠ p → z.inPort t q = s.inPort t q) ∧
            (∀ q, z.outPort t q = s.outPort t q) ∧ keepsMemory s z) ∧
          (s.tileOf g ≠ some t → s.isStub t g = false → leadsTo (.tokenArrival n) s fun z => z.net = s.net.eraseIdx n ∧
            (z.tile t).place.faultLog = (s.tile t).place.faultLog ++ [word g.toNat] ∧ keepsMemory s z)))) ∧
    (∀ g p seq y, s.net[n]? = some (.slot t g p seq y) → s.tileOf g = some t → leadsTo (.slotReturn n) s fun z => z.net = s.net.eraseIdx n ∧
      z.outPort t p = { s.outPort t p with slots := min 8 ((s.outPort t p).slots + 1) } ∧
      (∀ q, q ≠ p → z.outPort t q = s.outPort t q) ∧ keepsMemory s z) ∧
    (∀ entry g l x xs, e.tests = true → e.readyGroups = (entry, g) :: l → e.stepGroup g = false → s.freeCtxs t e.desc.fcore.toNat = x :: xs →
      leadsTo (.firingStart t) s fun z =>
        let k := z.ctx ⟨t, e.desc.fcore.toNat, x⟩
        k.status = .ready ∧ k.handler = .firing entry.toNat ∧ k.pc = entry.setWidth 64 ∧ k.sys.cap = e.desc.fcap ∧
        (∃ f, (z.tile t).port.firing = some f ∧ f.core = e.desc.fcore.toNat ∧ f.ctx = x ∧ f.group = g ∧ f.consumed = []) ∧
        (∀ p, z.inPort t p = s.inPort t p) ∧ keepsMemory s z) ∧
    (∀ entry g l, e.tests = true → e.readyGroups = (entry, g) :: l → e.stepGroup g = true → s.hasSlots t e.autos = true → g.Nodup →
      e.autos.Nodup → leadsTo (.colophonStep t) s fun z =>
        (∀ p ∈ g, (z.inPort t p).queue = (s.inPort t p).queue.tail ∧ (z.inPort t p).sealed_ = none) ∧
        (∀ p ∈ e.autos, (z.outPort t p).slots = (s.outPort t p).slots - 1 ∧ (z.outPort t p).seq = (s.outPort t p).seq + 1) ∧
        (∀ p, p ∉ e.autos → z.outPort t p = s.outPort t p) ∧ keepsMemory s z) ∧
    ∀ cut m run, s.proofDue t = true → s.marksAt t = some cut → (s.tile t).place.chase = some m → s.runOf m = some run →
      let a := (s.tile t).place.stateArea
      ∀ s1, s.chaseWrite t 0 (s.ccbOf m) (s.proofArea m run t cut.toNat) (a.2 + proofTail)
          (s.readLocal t 0 .t e.desc.bkey a.1 a.2 + 256 ^ a.2 * natOfWords (s.proofWords t)) = (s1, .ok ()) →
        leadsTo (.proofStep t) s fun z => (z.tile t).port.proofAt = cut ∧ .proofReport m t cut ∈ z.net ∧
          (e.arcs.Nodup → ∀ p ∈ e.arcs, (z.outPort t p).seq = (s.outPort t p).seq + 1 ∧ (z.outPort t p).slots = (s.outPort t p).slots - 1)

/-- R338 to R341: The steps of mail. A mail starts a handler where the target's limit leaves a context, else it is refused: with 1 while its
sender can be listed, 2 where the list is full, 3 for an index that no handler is bound to. The answer reaches the register that awaits it.
A context that comes free is reserved for the oldest refused sender, which is told; a reservation lapses after its deadline, or is withdrawn
by a sender that has gone. When each of these steps comes is the agenda's choice (log entry 5). -/
def Obligations.MailsAreTakenAnsweredAndNoticed : Prop :=
  ∀ (t n : Nat) (s : State),
    let e := (s.tile t).port
    (∀ g index src ident payload reply, s.net[n]? = some (.mail t g index src ident payload reply) → (s.tile t).place.live = true →
      s.tileOf g = some t →
      let b := e.mails.get MailBinding.reset index
      let answered (z : State) (k : Nat) : Prop := z.net = s.net.eraseIdx n ++ [.mailAnswer t src g ident k reply]
      let open_ := (∃ r ∈ e.reservations, r.sender = src) ∨ (e.refusals = [] ∧ s.mailsRunning t + e.reservations.length < e.limit)
      let free := (s.modPort t fun e => { e with reservations := e.reservations.filter fun r => r.sender != src }).mailCtx t
      (b.valid = false → leadsTo (.mailArrival n) s fun z => answered z 3 ∧ z.tiles = s.tiles) ∧
      (b.valid = true → open_ → e.mailStopped = false → ∀ c x, free = some (c, x) → leadsTo (.mailArrival n) s fun z =>
        let k := z.ctx ⟨t, c, x⟩
        let a := e.desc.mbase.toNat + 128 * (16 * c + x)
        answered z 0 ∧ k.status = .ready ∧ k.handler = .mail src.tile src.core src.ctx g index ident ∧ k.pc = b.entry.setWidth 64 ∧
        k.g 2 = word a ∧ (∀ r ∈ (z.tile t).port.reservations, r.sender ≠ src) ∧
        (a + 128 ≤ 0x100000 → z.readLocal t c .t noKey a 128 = payload.toNat)) ∧
      (b.valid = true → ¬open_ ∨ e.mailStopped = true ∨ free = none → leadsTo (.mailArrival n) s fun z => keepsMemory s z ∧
        (z.tile t).port.reservations = e.reservations ∧
        ((∀ r ∈ e.refusals, r.1 ≠ src) → e.refusals.length < 64 → answered z 1 ∧ (z.tile t).port.refusals = e.refusals ++ [(src, g)]) ∧
        ((∃ r ∈ e.refusals, r.1 = src) → answered z 1 ∧ (z.tile t).port.refusals = e.refusals) ∧
        ((∀ r ∈ e.refusals, r.1 ≠ src) → 64 ≤ e.refusals.length → answered z 2 ∧ (z.tile t).port.refusals = e.refusals))) ∧
    (∀ origin dst target ident answer reply, s.net[n]? = some (.mailAnswer origin dst target ident answer reply) →
      leadsTo (.mailAnswer n) s fun z => z.net = s.net.eraseIdx n ∧ keepsMemory s z ∧
        ((z.ctx dst.cur).flights = (s.ctx dst.cur).flights.map fun f => if f.value = .answer dst.core ident then
          { f with value := .word (word (answer + 2 ^ 32 * ident.toNat)) } else f) ∧
        (answer = 0 → (z.ctx dst.cur).sender.listed ≠ some target ∧ (z.ctx dst.cur).sender.reserved ≠ some target) ∧
        (answer = 1 → (z.ctx dst.cur).sender.listed = some target) ∧
        (2 ≤ answer → (z.ctx dst.cur).sender.turned = some target) ∧
        (answer ≠ 0 → reply = true → (z.core dst.tile dst.core).evq.held = (s.core dst.tile dst.core).evq.held - 1)) ∧
    (∀ src g l c x, e.refusals = (src, g) :: l → s.mailCtx t = some (c, x) → e.mailStopped = false →
      s.mailsRunning t + e.reservations.length < e.limit → leadsTo (.contextFreeNotice t) s fun z =>
        (z.tile t).port.refusals = l ∧ z.net = s.net ++ [.contextFree t src g] ∧ keepsMemory s z ∧
        (z.tile t).port.reservations = e.reservations ++ [{ core := c, ctx := x, sender := src, deadline := s.rtime t + 100000 }]) ∧
    (∀ r, e.reservations[n]? = some r →
      (r.deadline ≤ s.rtime t → leadsTo (.reservationLapse t n) s fun z =>
        (z.tile t).port.reservations = e.reservations.eraseIdx n ∧ keepsMemory s z) ∧
      (s.rtime t < r.deadline → leadsTo (.reservationLapse t n) s fun z => z = s)) ∧
    (∀ src, s.net[n]? = some (.withdrawal t src) → e.stub = none → leadsTo (.mailWithdrawal n) s fun z => z.net = s.net.eraseIdx n ∧
      (∀ r ∈ (z.tile t).port.refusals, r.1 ≠ src) ∧ (∀ r ∈ (z.tile t).port.reservations, r.sender ≠ src) ∧ keepsMemory s z) ∧
    ∀ origin dst g, s.net[n]? = some (.contextFree origin dst g) → earlierMail s.net n origin dst = false →
      ((s.ctx dst.cur).status = .free → leadsTo (.noticeArrival n) s fun z => z.net = s.net.eraseIdx n ++ [.withdrawal origin dst] ∧
        z.tiles = s.tiles) ∧
      ((s.ctx dst.cur).status ≠ .free → leadsTo (.noticeArrival n) s fun z => z.net = s.net.eraseIdx n ∧ keepsMemory s z ∧
        (z.ctx dst.cur).sender.reserved = some g ∧ (z.ctx dst.cur).sender.notice = some g ∧ (z.ctx dst.cur).sender.listed ≠ some g)

/-- R348 to R352, R355, R369: DRAM actors perform the requests in flight to them. A read, a gather or the last FLUSH answers each of its rows in
order; a write writes under its key; an AMO does both. A key slot that the actor lacks and a poisoned token answer with their causes. A
reply waits until it is the next that its port is owed and no acknowledgement is. Host or peer memory answers a request from outside. When
each of these steps comes is the agenda's choice (log entry 5), and what host or peer memory returns comes with its event (log entry 16). -/
def Obligations.DramActorsPerformAndAnswer : Prop :=
  ∀ (a k n : Nat) (data : List Byte) (s : State),
    let reply (r : DramReq) (row : Nat) (status : BitVec 16) (v len : Nat) : Msg :=
      .dramReply (s.placeOf r.rtag) r.rtag r.rport r.rq r.port row (r.reply row status v len)
    let code (c : Cause) : BitVec 16 := BitVec.ofNat 16 (0x8000 + c.code)
    (∀ op i r, s.request a k op = some (i, r) → (∀ w ∈ r.rows, s.sentOn a r w = none) → ∀ e,
      (op = 0 ∧ e = Instr.dramRead a k) ∨ (op = 1 ∧ e = Instr.dramWrite a k) ∨ (op = 2 ∧ e = Instr.dramAmo a k) ∨
        (op = 3 ∧ e = Instr.dramGather a k) →
      let key (w : DramRow) := (s.keyPair w.pa r.key.toNat).getD 0
      let loaded := ∀ w ∈ r.rows, (s.keyPair w.pa r.key.toNat).isSome
      ((∀ w ∈ r.rows, s.keyPair w.pa r.key.toNat = none) → leadsTo e s fun z =>
        z.net = s.net.eraseIdx i ++ r.rows.map (fun w => reply r w.row (code .keySlot) 0 0) ∧ keepsMemory s z) ∧
      (op ≠ 1 → loaded → (∀ w ∈ r.rows, s.dram.poisoned w.pa r.bytes = true) → leadsTo e s fun z =>
        z.net = s.net.eraseIdx i ++ r.rows.map (fun w => reply r w.row (code .dramPoison) 0 0) ∧ keepsMemory s z) ∧
      (op = 0 ∨ op = 3 → loaded → (∀ w ∈ r.rows, s.dram.poisoned w.pa r.bytes = false) → leadsTo e s fun z =>
        z.net = s.net.eraseIdx i ++ r.rows.map (fun w => reply r w.row 0 (s.dram.read (key w) w.pa r.bytes) (r.bytes / 8)) ∧
        z.dram = s.dram ∧ keepsMemory s z) ∧
      (∀ w, op = 1 → loaded → r.rows = [w] → leadsTo e s fun z =>
        z.dram = s.dram.write (key w) w.pa r.bytes (r.data.toNat % 256 ^ r.bytes) ∧
        z.net.getLast? = some (reply r w.row 0 0 0) ∧ z.tiles = s.tiles) ∧
      (∀ w, op = 2 → loaded → r.rows = [w] → s.dram.poisoned w.pa r.bytes = false → leadsTo e s fun z =>
        let m := 256 ^ r.bytes
        let old := s.dram.read (key w) w.pa r.bytes
        let x := r.value.toNat % m
        let less (x y : Nat) : Bool := if r.z then decide (x < y) else decide (signedOf r.bytes x < signedOf r.bytes y)
        let new := (if r.amo = 0 then old + x else if r.amo = 1 then old &&& x else if r.amo = 2 then old ||| x
          else if r.amo = 3 then old ^^^ x else if r.amo = 4 then (if less x old then x else old)
          else if r.amo = 5 then (if less old x then x else old) else if r.amo = 6 then x
          else if old = r.cmp.toNat % m then x else old) % m
        z.net.getLast? = some (reply r w.row 0 old 1) ∧ z.tiles = s.tiles ∧
        z.dram = if r.amo = 7 ∧ new = old then s.dram else s.dram.write (key w) w.pa r.bytes new)) ∧
    (∀ i r, s.request a k 4 = some (i, r) →
      (s.earlierOpen i r = true → leadsTo (.dramFlush a k) s fun z => z = s) ∧
      (s.earlierOpen i r = false → leadsTo (.dramFlush a k) s fun z => z.net = s.net.eraseIdx i ++ [reply r 0 0 0 0] ∧ keepsMemory s z)) ∧
    (∀ t g p rq port row tok w, s.net[n]? = some (.dramReply t g p rq port row tok) →
      (s.outPort (s.placeOf rq) port).nextOwed g p = some w → w.seq = tok.seq → w.row = row →
      s.owedAcks (s.placeOf rq) w.by_.core (64 + port) = 0 → s.tileOf g = some t → leadsTo (.dramReply n) s fun z =>
        z.net = s.net.eraseIdx n ∧ (z.inPort t p).queue = (s.inPort t p).queue ++ [tok] ∧
        (z.outPort (s.placeOf rq) port).owed = (s.outPort (s.placeOf rq) port).owed.filter (· != w) ∧ keepsMemory s z) ∧
    ∀ r, s.net[n]? = some (.backing r) →
      let v := s.backingBytes r data
      (s.earlierOpen n r = true → leadsTo (.hostBackingReply n data) s fun z => z = s) ∧
      (s.earlierOpen n r = false → ∀ p, r.peer = some p → s.moduleRoute p = none → leadsTo (.hostBackingReply n data) s fun z =>
        z.net = s.net.eraseIdx n ∧ z.plat.linkFaults = s.plat.linkFaults ++ [word p] ∧ z.tiles = s.tiles) ∧
      ((r.peer = none ∧ s.hostLinked = false) ∨ (∃ p l, r.peer = some p ∧ s.moduleRoute p = some l ∧ s.linkServes l = false) →
        leadsTo (.hostBackingReply n data) s fun z => z = s) ∧
      (s.earlierOpen n r = false →
        ((r.peer = none ∧ s.hostLinked = true) ∨ ∃ p l, r.peer = some p ∧ s.moduleRoute p = some l ∧ s.linkServes l = true) →
      (r.port < 16 → r.op = 1 → leadsTo (.hostBackingReply n data) s fun z =>
        z.net = s.net.eraseIdx n ++ r.rows.map (fun w => reply r w.row 0 0 0) ∧ keepsMemory s z) ∧
      (r.port < 16 → r.op ≠ 1 → leadsTo (.hostBackingReply n data) s fun z =>
        z.net = s.net.eraseIdx n ++ r.rows.map (fun w => reply r w.row 0 v (r.bytes / 8)) ∧ keepsMemory s z) ∧
      (16 ≤ r.port → r.op = 0 →
        let engines := (s.tile r.tile).eng.xnode.remote
        leadsTo (.hostBackingReply n data) s fun z => z.net = s.net.eraseIdx n ∧ keepsMemory s z ∧
        (∀ e ∈ engines, e.ident = r.seq → { e with value := some v } ∈ (z.tile r.tile).eng.xnode.remote) ∧
        ((∀ e ∈ engines, e.ident ≠ r.seq) → ∀ u f i m sx, u.tile = r.tile → f ∈ (s.ctx u).flights → f.value = .owed i m sx →
          BitVec.ofNat 32 i = r.seq → { f with value := .word (if sx then wordI (signedOf m v) else word v) } ∈ (z.ctx u).flights)))

/-- R128, R349, R357, R360, R362, R364 to R367, R430: The steps of translation nodes, duplicates and the DRAM store. A walk fills the buffer, or
traps the contexts that wait for it; a shootdown drops the page at every node, and counts once no translated access is in flight; low marks
are sent when the minimum rises, at most once per µs. A duplicate collapses an invalidated page and acknowledges it; a late one is reported.
A spare channel is used once; a lost actor stays lost; a token error is corrected and counted, or poisons the token. When each of these
steps comes is the agenda's choice (log entry 5); the record of a spare swap and the channel of a token are the model's (log entries 14 and
28). -/
def Obligations.NodesDuplicatesAndChannelsStep : Prop :=
  ∀ (t c x n a va : Nat) (write : Bool) (s : State),
    let k := (s.tile t).eng.xnode
    (s.unitHeld t 7 0 = false →
      (∀ e, s.walk t va write = .ok e → s.xlateWaiters t va write ≠ [] → k.dreqs = [] → leadsTo (.translationWalk t va write) s fun z =>
        (z.tile t).eng.xnode.buf.head? = some e ∧ z.net = s.net ∧ keepsMemory s z) ∧
      (∀ e, s.walk t va write = .ok e → s.walkHeads t va write ≠ [] → leadsTo (.translationWalk t va write) s fun z => keepsMemory s z) ∧
      (∀ f u b m, s.walk t va write = .error f → s.xlateWaiters t va write = [(u, b, m)] → s.walkHeads t va write = [] →
        leadsTo (.translationWalk t va write) s fun z => z = s.raise u f
          (if f = .keySlot then keySlotInfo 0 (s.walkActor t va) else infoM b 4 m write) (lenAt (s.tile t).x (xAddr (s.ctx u).pc)))) ∧
    (leadsTo (.xlateShootdown t c x) s fun z => z.net.length = s.net.length ∧ keepsMemory s z ∧ (∀ y v m, .shoot t c x y v m ∉ z.net) ∧
      ∀ y v m, .shoot t c x y v m ∈ s.net → .shot t c x y v m ∈ z.net ∧ (∀ e ∈ (z.tile y).eng.xnode.buf, e.within v m = false) ∧
        ∀ p ∈ (z.tile y).eng.xnode.pins, p.2.within v m = false) ∧
    (∀ y v m, s.net[n]? = some (.shot t c x y v m) →
      (s.flying y v m = true → leadsTo (.shootdownAck n) s fun z => z = s) ∧
      (s.flying y v m = false → leadsTo (.shootdownAck n) s fun z => z.net = s.net.eraseIdx n ∧ keepsMemory s z ∧
        ∀ e ∈ (z.tile t).eng.xnode.shooting, e.1 = c → e.2.1 = x → y ∉ e.2.2)) ∧
    (leadsTo (.lowMark t) s fun z =>
      let low := s.lowMin t
      let rises := k.risen = true ∨ ∃ i, k.seenMin = some i ∧ ∀ j, low = some j → i < j
      let m := (z.tile t).eng.xnode
      m.seenMin = low ∧ keepsMemory s z ∧ z.net = s.net ∧
      (rises → k.sentAt + 1000 ≤ s.rtime t → m.sentMin = low ∧ m.sentAt = s.rtime t ∧ m.risen = false) ∧
      (rises → s.rtime t < k.sentAt + 1000 → m.sentMin = k.sentMin ∧ m.sentAt = k.sentAt ∧ m.risen = true) ∧
      (¬rises → m.sentMin = k.sentMin ∧ m.sentAt = k.sentAt ∧ m.risen = false)) ∧
    (∀ home dup page who, s.net[n]? = some (.invalidate home dup page t c who) → (s.actor dup).lost = false →
      leadsTo (.dupInvalidation n) s fun z => z.net = s.net.eraseIdx n ++ [.invalidated home dup page t c who] ∧ keepsMemory s z ∧
        ∀ e, (s.actor home).entry page = some e → (z.actor dup).collapsed.find page = some ⟨e.size, e.gen, []⟩) ∧
    (∀ home dup page who, s.net[n]? = some (.invalidated home dup page t c who) → leadsTo (.dupAck n) s fun z =>
      z.net = s.net.eraseIdx n ∧ keepsMemory s z ∧ (∀ e ∈ (z.actor home).dir, e.page = page → dup ∉ e.dups) ∧
      (who < 16 → ∀ e, (s.actor home).entry page = some e → ∀ o ∈ e.owing, o.dup = dup → o.tile = t → o.core = c → o.who = who →
        (z.ctx ⟨t, c, who⟩).acks = (s.ctx ⟨t, c, who⟩).acks - 1)) ∧
    (∀ o at_, (s.actor a).owing[n]? = some o → o.sent = some at_ →
      (s.now ≤ at_ + 100000 → leadsTo (.dupCollapse a n) s fun z => z = s) ∧
      (at_ + 100000 < s.now → leadsTo (.dupCollapse a n) s fun z => keepsMemory s z ∧ { o with sent := none } ∈ (z.actor a).owing ∧
        (z.core o.tile o.core).npend.getLsbD (noticeBit .dupCollapse) = true)) ∧
    (∀ o, (s.actor a).owing[n]? = some o → o.sent = none →
      (s.dupRemoved o = false → leadsTo (.dupCollapse a n) s fun z => z = s) ∧
      (s.dupRemoved o = true → ∀ e, (s.actor a).dir.find? (·.owing.contains o) = some e → leadsTo (.dupCollapse a n) s fun z =>
        keepsMemory s z ∧ z.net = s.net ∧ ∀ d ∈ (z.actor a).dir, d.page = e.page → o.dup ∉ d.dups)) ∧
    (c < 8 → (s.actor a).spareUsed = false → leadsTo (.channelSpareSwap a c) s fun z => (z.actor a).spareUsed = true ∧
      (z.actor a).errors.get 0 c = 0 ∧
      (z.core (tileAt (attachment a).1 (attachment a).2) 0).npend.getLsbD (noticeBit .spareSwap) = true ∧ z.plat.spareLog.length = s.plat.spareLog.length + 1 ∧ keepsMemory s z) ∧
    (8 ≤ c ∨ (s.actor a).spareUsed = true → leadsTo (.channelSpareSwap a c) s fun z => z = s) ∧
    (a < 96 → leadsTo (.dramActorLost a) s fun z => (z.actor a).lost = true ∧ z.tiles = s.tiles ∧ z.dram = s.dram) ∧
    (actorOf (128 * n) < 96 →
      (leadsTo (.tokenPoisoned n false) s fun z => n ∈ z.dram.poison ∧ z.dram.bytes = s.dram.bytes ∧ z.tiles = s.tiles) ∧
      (leadsTo (.tokenPoisoned n true) s fun z => z.dram = s.dram ∧ z.tiles = s.tiles ∧
        let h := Config.channelOf n % 8
        (z.actor (actorOf (128 * n))).errors.get 0 h = (s.actor (actorOf (128 * n))).errors.get 0 h + 1))

/-- R372 to R380, R386, R421: The steps of a migration and of a drain's probes. The rebalancer counts its windows and orders a migration of its
candidate; the source freezes, quiesces and sends a seam on each arc; its tag moves to the destination, and the source becomes a stub that
sends on what comes; a seam is acknowledged behind the tokens before it; the stub closes once nothing is owed. A tile with a probe at each
fed port sends probes on. When each of these steps comes is the agenda's choice (log entry 5). -/
def Obligations.MigrationsFreezeSealRebindAndClose : Prop :=
  ∀ (n i t : Nat) (s : State),
    let r := s.rebal n
    (∀ run w', s.runOf n = some run → s.windowOf n = some w' →
      let reports := s.windowReports n
      let w : Word := BitVec.ofNat 64 ((s.ccbGet (s.ccbOf n) 32 8).getD 0)
      let y := s.modRebal n fun r => { r.window w reports with seen := w' }
      let stays := rebalEn w = false ∨ s.migrating n = true ∨ (s.chase n).work ≠ .none ∨ s.rebalHeld n = true
      let counted (z : State) : Prop := (z.rebal n).word = w ∧ (z.rebal n).seen = w' ∧ keepsMemory s z ∧
        (∀ k, (∀ q ∈ reports, q.tile ≠ k) → (z.rebal n).windows.get 0 k = r.windows.get 0 k) ∧
        ((reports.map WindowSample.tile).Nodup → ∀ q ∈ reports, (z.rebal n).windows.get 0 q.tile =
          if rebalHi w ≤ q.occ then min (r.windows.get 0 q.tile + 1) (2 ^ 32 - 1) else 0)
      (∀ k, k ≠ w' ∨ w' ≤ r.seen → leadsTo (.rebalancerWindow n k) s fun z => z = s) ∧
      (r.seen < w' → stays → leadsTo (.rebalancerWindow n w') s fun z => counted z ∧ (z.rebal n).migration = r.migration) ∧
      (r.seen < w' → ¬stays → ∀ k d g, pickCandidate (reports.filterMap (y.candidate n (y.rebal n) r.cool run)) = some (k, d, g) →
        leadsTo (.rebalancerWindow n w') s fun z => counted z ∧ (z.rebal n).migration =
          some { step := 1, src := k.tile, dst := d, tag := g, debts := [], sent := [], seams := [], by_ := none })) ∧
    (∀ m, r.migration = some m →
      let src := s.tile m.src
      (m.step = 1 → leadsTo (.migrationFreeze n) s fun z => (z.tile m.src).port.frozen = true ∧
        (z.rebal n).migration = some { m with step := 2 } ∧ keepsMemory s z) ∧
      (m.step ≠ 1 → leadsTo (.migrationFreeze n) s fun z => z = s) ∧
      (m.step = 2 → s.handlersIdle m.src = true → s.walksIdle m.src = true → s.enginesIdle m.src = true →
        leadsTo (.migrationQuiesced n) s fun z => (z.rebal n).migration = some { m with step := 4, seams := s.seamPorts m.src } ∧
          z.tiles = s.tiles ∧ z.net = s.net ++ (s.seamPorts m.src).map fun p =>
            let o := s.outPort m.src p
            .seam (s.placeOf o.dtag) o.dtag o.dport m.tag p none) ∧
      (m.step = 2 → s.handlersIdle m.src = false ∨ s.walksIdle m.src = false ∨ s.enginesIdle m.src = false →
        leadsTo (.migrationQuiesced n) s fun z => z = s) ∧
      (m.step = 4 → (s.tile m.dst).place.live = false → leadsTo (.migrationRebind n) s fun z => z = s) ∧
      (∀ run, m.step = 4 → s.runOf n = some run → m.src ≠ m.dst → (s.tile m.dst).place.live = true → leadsTo (.migrationRebind n) s fun z =>
        (Tag.kind m.tag < 3 → z.tileOf m.tag = some m.dst) ∧ (∀ g, g ≠ m.tag → z.tileOf g = s.tileOf g) ∧
        (z.tile m.src).port.stub = some ⟨m.dst, m.tag⟩ ∧ (z.tile m.dst).port.inputs = src.port.inputs ∧
        (z.tile m.dst).place.chase = some n ∧ (z.tile m.dst).place.member = m.tag ∧ (z.tile m.dst).eng.quires = src.eng.quires ∧
        (∃ k, (z.rebal n).migration = some k ∧ k.step = 7 ∧ k.seams = m.seams ∧ k.src = m.src ∧ k.dst = m.dst) ∧
        (z.core m.dst 0).npend.getLsbD (noticeBit .migrate) = true) ∧
      (∀ run, m.step = 7 → s.runOf n = some run → m.debts = [] → m.seams = [] →
        (s.stubOwes m.src = true → leadsTo (.stubClose n) s fun z => z = s) ∧
        (s.stubOwes m.src = false → leadsTo (.stubClose n) s fun z => (z.rebal n).migration = none ∧
          (z.tile m.src).place.chase = none ∧ ∀ u, m.by_ = some u → u.1 ≠ m.src → ∀ f ∈ (s.ctx ⟨u.1, u.2.1, u.2.2⟩).flights,
            f.value = .migration n → { f with value := .word 0 } ∈ (z.ctx ⟨u.1, u.2.1, u.2.2⟩).flights))) ∧
    (∀ m, s.net[i]? = some m →
      (∀ k, s.forwarded m = some k → leadsTo (.stubForward i) s fun z => z.net = s.net.set i k ∧ z.tiles = s.tiles ∧ z.dram = s.dram) ∧
      (s.forwarded m = none → leadsTo (.stubForward i) s fun z => z = s)) ∧
    (∀ g p q k via, s.net[i]? = some (.seam t g p q k via) →
      let leaves (l : Nat) (head : Nat) : Prop :=
        let bytes := bytesOfNat 16 head ++ bytesOfNat 128 0
        leadsTo (.seamArrival i) s fun z => z.net = s.net.eraseIdx i ∧ z.tiles = s.tiles ∧
          ((s.link l).takes = true → s.linkHeld l = false → z.link l = (s.link l).transmit bytes) ∧
          ((s.link l).takes = false ∨ s.linkHeld l = true → (z.link l).waiting = (s.link l).waiting ++ [bytes])
      (earlierToken s.net i g p = true → leadsTo (.seamArrival i) s fun z => z = s) ∧
      (earlierToken s.net i g p = false →
        (∀ l, Tag.linkOf g = some l → leaves l ((seamToken q k).header g p)) ∧
        (Tag.linkOf g = none → (s.tile t).place.live = true → s.tileOf g = some t →
          (via = none → leadsTo (.seamArrival i) s fun z => z.net = s.net.eraseIdx i ++ [.seamAck q k] ∧ z.tiles = s.tiles) ∧
          ∀ l, via = some l → leaves l (portHeader q k 0 12)))) ∧
    (∀ g q, s.net[i]? = some (.seamAck g q) → leadsTo (.seamAck i) s fun z => z.net = s.net.eraseIdx i ∧ keepsMemory s z ∧
      (∀ y, s.tileOf g = some y → (z.outPort y q).seamed = false) ∧ ∀ c m, (z.rebal c).migration = some m → m.tag = g → q ∉ m.seams) ∧
    (s.probeDue t = true → leadsTo (.probeStep t) s fun z => (z.tile t).port.probed = true ∧ keepsMemory s z ∧
      ((s.tile t).port.arcs.Nodup → ∀ p ∈ (s.tile t).port.arcs, (z.outPort t p).seq = (s.outPort t p).seq + 1)) ∧
    (s.probeDue t = false → leadsTo (.probeStep t) s fun z => z = s)

/-- R388, R391, R393, R394, R396, R400: The galley service. A kick latches the tail, and a galley with work joins the queue of its zone; the
service tile is told of the oldest; ages count milliseconds; a packet is read, its snapshot written and its record delivered; a fault of a
read holds the slot and is reported. That ages are counted when they are next looked at is the model's (log entry 29). -/
def Obligations.GalleysAreKickedAgedAndAccepted : Prop :=
  ∀ (galley slot zone : Nat) (tail : BitVec 32) (s : State),
    let g := galley % 4096
    let e := s.galley g
    (s.galleys.kicks.find? (·.1 == g) ≠ some (g, tail) → leadsTo (.kick galley tail) s fun z => z = s) ∧
    (s.galleys.kicks.find? (·.1 == g) = some (g, tail) → leadsTo (.kick galley tail) s fun z => (z.galley g).tail = tail ∧ keepsMemory s z ∧
      z.galleys.kicks = s.galleys.kicks.erase (g, tail) ∧
      (e.tail ≠ tail → e.en = true → e.mapped = false → e.pending = false → e.head ≠ tail → (z.galley g).pending = true ∧
        z.galleys.queues.get [] e.zone.toNat = s.galleys.queues.get [] e.zone.toNat ++ [g]) ∧
      (e.tail = tail ∨ e.en = false ∨ e.mapped = true ∨ e.pending = true ∨ e.head = tail → z.galleys.queues = s.galleys.queues)) ∧
    (∀ y l t, s.galleys.queues.get [] zone = y :: l → s.serviceTile zone = some t →
      ((s.core t 3).npend.getLsbD (noticeBit .kickPending) = true ∨ s.moduleHeld 9 0x81 = true →
        leadsTo (.kickPending zone) s fun z => z = s) ∧
      ((s.core t 3).npend.getLsbD (noticeBit .kickPending) = false → s.moduleHeld 9 0x81 = false → leadsTo (.kickPending zone) s fun z =>
        z.galleys.queues.get [] zone = l ∧ (z.core t 3).npend.getLsbD (noticeBit .kickPending) = true ∧
        (z.core t 3).ninfo.get 0 (noticeBit .kickPending) = BitVec.ofNat 64 y ∧ keepsMemory s z)) ∧
    (leadsTo .galleyAgeTick s fun z => keepsMemory s z ∧ ∀ y,
      let k := s.galley y
      (k.pending = true → k.mapped = false →
        (z.galley y).age = BitVec.ofNat 8 (min 255 (k.age.toNat + (s.now / 1000000 - s.galleys.agedAt / 1000000)))) ∧
      (k.pending = false ∨ k.mapped = true → z.galley y = k)) ∧
    (∀ rec_ t, (s.slotAt slot).pendRec = some rec_ → s.serviceTile (slotZone slot) = some t → (s.core t 2).evq.hasRoom = true →
      leadsTo (.packetAccept slot) s fun z => (z.slotAt slot).pendRec = none ∧ keepsMemory s z ∧
        (z.core t 2).evq.ready = (s.core t 2).evq.ready ++ [rec_]) ∧
    ((s.slotAt slot).pendRec = none →
      (∀ s1 v desc status, s.acceptRead slot = .packet s1 v desc status → leadsTo (.packetAccept slot) s fun z =>
        let y := (s1.slotAt slot).galley
        let t := (s1.serviceTile (slotZone slot)).getD 0
        let a := s1.areaOf slot (s1.galley y).head.toNat
        (z.galley y).head = (s1.galley y).head + 1 ∧ z.galleys.open_ = s1.galleys.open_ ++
          [⟨y, (s1.galley y).head, status, t, a, (s1.slotAt slot).chase⟩] ∧
        (z.slotAt slot).count = (s1.slotAt slot).count + 1 ∧
        (a + 2048 ≤ 0x100000 → z.readLocal t 0 .t noKey a 64 = v % 256 ^ 64 ∧
          ∀ m d, desc = some (m, d) → m ≤ 1920 → z.readLocal t 0 .t noKey (a + 128) m = d % 256 ^ m)) ∧
      (∀ s1 f, s.acceptRead slot = .fault s1 f →
        (f.cause = .keySlot → leadsTo (.packetAccept slot) s fun z =>
          let y := (s1.slotAt slot).galley
          let t := (s1.serviceTile (slotZone slot)).getD 0
          (z.galley y).head = (s1.galley y).head + 1 ∧ z.galleys.open_ = s1.galleys.open_ ++
            [⟨y, (s1.galley y).head, 0x801D, t, s1.areaOf slot (s1.galley y).head.toNat, (s1.slotAt slot).chase⟩]))) ∧
    ∀ s1 f, s.acceptRead slot = .fault s1 f → f.cause ≠ .keySlot → leadsTo (.acceptFault slot) s fun z =>
      (z.slotAt slot).fault = some (f.va, f.cause) ∧
      (f.cause = .dramPoison → (z.chase (s1.slotAt slot).chase).struck = true) ∧
      (f.cause ≠ .dramPoison → ∀ t, s1.serviceTile (slotZone slot) = some t →
        (z.tile t).place.tasks.length = (s1.tile t).place.tasks.length + 1)

/-- R390, R394, R426 to R431: The commands of a galley, each of which completes once it is accepted: one that was accepted with an error with
that status, NOP at once, IMPOSE with a placement loaded, INPUT and COLOPHON with a token logged and sent, SWAP and SHRINK with the chase
swapped, RELEASE with its chase ended, BARRIER when it is the galley's oldest. A cut completes when every tile has reported it; a rollback
restores its domain; a reservation of a fold lapses. A command with its packet is an event (log entry 10), and the work of a load or a swap
is one step (log entry 30). -/
def Obligations.GalleyCommandsCompleteAndChasesRollBack : Prop :=
  ∀ (galley n : Nat) (packet : Packet) (s : State),
    let field (off k : Nat) : Nat := packetField packet off k
    let code (c : Cause) : BitVec 16 := BitVec.ofNat 16 (0x8000 + c.code)
    let ends (e : Instr) (s1 : State) (status : BitVec 16) : Prop :=
      leadsTo e s fun z => z = s1.finishCommand galley packet status ∧
        ∀ k ∈ z.galleys.open_, k.galley = galley → k.index ≠ packet.index
    let steps : List (Nat × Instr) := [(0, .galleyNop galley packet), (1, .impose galley packet), (2, .input galley packet),
      (3, .colophon galley packet), (4, .swap galley packet), (5, .shrink galley packet), (6, .release galley packet),
      (7, .barrier galley packet)]
    (s.openCmd galley packet = none → ∀ p ∈ steps, leadsTo p.2 s fun z => z = s) ∧
    (∀ p ∈ steps, field 0 1 ≠ p.1 → p.1 ≠ 0 ∨ field 0 1 < 8 → leadsTo p.2 s fun z => z = s) ∧
    (∀ cmd, s.openCmd galley packet = some cmd → cmd.status ≠ 0 →
      (∀ p ∈ steps, field 0 1 = p.1 → ends p.2 s cmd.status) ∧ (8 ≤ field 0 1 → ends (.galleyNop galley packet) s cmd.status)) ∧
    (∀ cmd, s.openCmd galley packet = some cmd → cmd.status = 0 →
      let takes (op : Nat) : Prop := field 0 1 = op
      let c := cmd.chase
      let ccb := s.ccbOf c
      let a := field 24 8
      let i := field 2 2
      let t := cmd.tile
      let first := (s.galleys.open_.find? (·.galley == galley)).map OpenCmd.index
      (takes 0 → ends (.galleyNop galley packet) s 0) ∧
      (takes 7 → first = some packet.index → ends (.barrier galley packet) s 0) ∧
      (takes 7 → first ≠ some packet.index → leadsTo (.barrier galley packet) s fun z => z = s) ∧
      (takes 1 →
        (a % 4 = 3 ∨ a / 4 % 1024 ≠ 0 → ends (.impose galley packet) s (code .align)) ∧
        (a % 4 ≠ 3 → a / 4 % 1024 = 0 →
          (s.ccbValid ccb = false → ends (.impose galley packet) s (code .formeImage)) ∧
          (s.ccbValid ccb = true → s.chaseBusy c ⟨t, 4, 0⟩ = true → leadsTo (.impose galley packet) s fun z => z = s) ∧
          (s.ccbValid ccb = true → s.chaseBusy c ⟨t, 4, 0⟩ = false →
            (∀ k info, s.formeLoad t c ccb (a / 4096 * 4096) (2 ^ (a % 4)) = .act (.trap k info) →
              ends (.impose galley packet) s (code k)) ∧
            (∀ k, s.formeLoad t c ccb (a / 4096 * 4096) (2 ^ (a % 4)) = .status k → ends (.impose galley packet) s (code .formeImage)) ∧
            ∀ s1, s.formeLoad t c ccb (a / 4096 * 4096) (2 ^ (a % 4)) = .loaded s1 → ends (.impose galley packet) s1 0 ∧
              (s1.chase c).loaded.isSome = true))) ∧
      (takes 2 →
        (s.input c i = none → ends (.input galley packet) s (code .portUnbound)) ∧
        (s.input c i ≠ none → ∀ s1, (s.feedFrom c i galley).logSend c i .data (s.snapshotToken cmd packet) 16 = some s1 →
          ends (.input galley packet) s1 0)) ∧
      (takes 3 →
        (s.input c i = none → ends (.colophon galley packet) s (code .portUnbound)) ∧
        (s.input c i ≠ none → ∀ s1, (s.feedFrom c i galley).sendColophon c i (field 1 1 / 2 % 4) = some s1 →
          ends (.colophon galley packet) s1 0)) ∧
      (takes 4 → s.busyElsewhere c = false →
        ((s.chase c).loaded = none → ends (.swap galley packet) s (code .formeImage)) ∧
        ((s.chase c).loaded ≠ none →
          (∀ s1, (s.beginJob galley packet).kernelSwap t c false = (s1, none) → leadsTo (.swap galley packet) s fun z => z = s1) ∧
          ∀ s1 k, (s.beginJob galley packet).kernelSwap t c false = (s1, some k) → ends (.swap galley packet) s1 k)) ∧
      (takes 5 →
        let m := a
        (foldCode (field 32 8) = none ∨ s.runOf m = none ∨ s.below_ ccb 9 (s.ccbOf m) = false →
          ends (.shrink galley packet) s (code .shrink)) ∧
        (∀ f run, foldCode (field 32 8) = some f → s.runOf m = some run → s.below_ ccb 9 (s.ccbOf m) = true →
          let begun := ∃ j ∈ s.galleys.jobs, j.1 = galley ∧ j.2.index = packet.index
          let s0 := s.endMigration m false
          (¬begun → s0.migrating m = true ∨ (s0.chase m).work ≠ .none → leadsTo (.shrink galley packet) s fun z => z = s0) ∧
          (¬begun → s0.migrating m = false → (s0.chase m).work = .none →
            let y := s0.notify t 3 .shrink (word (m % 65536 + 65536 * f))
            (∀ s1, y.formeLoad t m (y.ccbOf m) run.file (2 ^ f) = .loaded s1 → leadsTo (.shrink galley packet) s fun z =>
              z = ((s1.beginJob galley packet).formeDrain m true true none).1) ∧
            ∀ k, y.formeLoad t m (y.ccbOf m) run.file (2 ^ f) = .status k →
              ends (.shrink galley packet) y (code .shrink)) ∧
          (begun → s.busyElsewhere m = true → leadsTo (.shrink galley packet) s fun z => z = s) ∧
          (begun → s.busyElsewhere m = false →
            (∀ s1, s.kernelSwap t m true = (s1, none) → leadsTo (.shrink galley packet) s fun z => z = s1) ∧
            ∀ s1 k, s.kernelSwap t m true = (s1, some k) → leadsTo (.shrink galley packet) s fun z =>
              (∀ k ∈ z.galleys.open_, k.galley = galley → k.index ≠ packet.index) ∧
              z.tiles = (s1.finishCommand galley packet k).tiles ∧
              let left := (s.runTiles m).filter fun y => !(s1.runTiles m).contains y
              (left ≠ [] → (z.chase c).reserved = left ∧ (z.chase c).reservedUntil = s.now + 10000000)))) ∧
      (takes 6 → s.busyElsewhere c = true → leadsTo (.release galley packet) s fun z => z = s) ∧
      (takes 6 → s.busyElsewhere c = false → leadsTo (.release galley packet) s fun z =>
        (∀ k ∈ z.galleys.open_, k.galley = galley → k.index ≠ packet.index) ∧ (z.chase c).ended = true ∧ (z.chase c).run = none)) ∧
    (s.runTiles n ≠ [] →
      let cut := s.nextCut n
      ((∃ t ∈ s.runTiles n, s.reported n t cut = false) → leadsTo (.cutComplete n) s fun z => z = s) ∧
      ((∀ t ∈ s.runTiles n, s.reported n t cut = true) → leadsTo (.cutComplete n) s fun z => z.tiles = s.tiles ∧
        (∀ t, .proofReport n t cut ∉ z.net) ∧ ∀ i k, (s.chase n).inputs.find i = some k → (z.chase n).inputs.find i =
          some { k with logFirst := k.marks.get k.logFirst cut.toNat, marks := k.marks.filter fun m => decide (cut.toNat ≤ m.1) })) ∧
    (s.domainChases n = [n] →
      (s.runOf n = none → leadsTo (.rollback n) s fun z => (z.chase n).struck = false ∧ (z.chase n).dead = [] ∧ z.tiles = s.tiles) ∧
      (∀ run run1 s1 s2,
        let cut := (s.ccbGet (s.ccbOf n) 84 4).getD 0
        let y := s.holdChase n cut
        s.runOf n = some run → y.runOf n = some run1 → (∀ t ∈ y.deadTiles n, (y.spareFor t).isSome) → y.rebindAll n run1 = some s1 →
        ((s1.restoreAll n cut ((s1.runOf n).getD run)).bind fun x => x.replay n cut) = some s2 →
        leadsTo (.rollback n) s fun z => (z.chase n).work = .none ∧ (z.chase n).struck = false ∧ (z.chase n).dead = [] ∧
          z.tiles = s2.tiles)) ∧
    ((s.chase n).reserved ≠ [] → (s.chase n).reservedUntil ≤ s.now → leadsTo (.foldReservationLapse n) s fun z =>
      (z.chase n).reserved = [] ∧ z.tiles = s.tiles) ∧
    ((s.chase n).reserved = [] ∨ s.now < (s.chase n).reservedUntil → leadsTo (.foldReservationLapse n) s fun z => z = s)

/-- R407, R408, R434 to R449, R453: The steps of clocks and of power. A tile shares its load and watches its neighbours; its step falls at once
and rises one step each 200 ns; an alarm throttles every live tile until it has been clear; idle cores and tiles gate and sleep; the steward
beats, hangs and resumes; reference time follows the time port and its tokens. When each of these steps comes is the agenda's choice (log
entries 5 and 6). -/
def Obligations.ClocksStepAndPowerIsKept : Prop :=
  ∀ (t c d n : Nat) (s : State),
    let y := s.tile t
    let p := s.plat.power
    let m := s.plat.time
    let wait_ := if p.hung || p.updating then 1000000 else 100000
    let stays (e : Instr) : Prop := leadsTo e s fun z => z = s
    let notified (z : State) (u k : Nat) (x : Cause) : Prop := (z.core u k).npend.getLsbD (noticeBit x) = true
    (y.place.live = true → y.place.chase ≠ none → y.clk.sharedAt + 50000 ≤ s.now → leadsTo (.loadShareTick t) s fun z =>
      keepsMemory s z ∧ (z.tile t).clk.sharedAt = s.now ∧
      (z.tile t).place.tasks.length ≤ y.place.tasks.length ∧
      ∀ i x, i < 4 → s.sharer t i = some x → ∃ l, .heartbeat x ((i + 2) % 4) y.place.tasks.length y.slowed l ∈ z.net) ∧
    (y.place.live = false ∨ y.place.chase = none ∨ s.now < y.clk.sharedAt + 50000 → stays (.loadShareTick t)) ∧
    (∀ u i k b l, s.net[n]? = some (.heartbeat u i k b l) → leadsTo (.heartbeatArrival n) s fun z => z.net = s.net.eraseIdx n ∧
      (z.tile u).place.tasks = (s.tile u).place.tasks ++ l ∧ (z.tile u).clk.tasks.find i = some k ∧
      (z.tile u).clk.watch.find i = some { counted := 0, at_ := s.now, slowed := b, raised := false } ∧ keepsMemory s z) ∧
    (∀ w x, y.clk.watch.find d = some w → neighbour t d = some x →
      (w.raised = true ∨ w.counted < 300000 → stays (.watchdog t d)) ∧
      (w.raised = false → 300000 ≤ w.counted → leadsTo (.watchdog t d) s fun z => notified z t 0 .watchdog ∧ keepsMemory s z ∧
        (z.tile t).clk.watch.find d = some { w with raised := true } ∧
        ∀ k, (s.tile x).place.chase = some k → (z.chase k).struck = true ∧ x ∈ (z.chase k).dead)) ∧
    (y.target < y.clk.step → leadsTo (.stepChange t) s fun z => (z.tile t).clk.step = y.target ∧ (z.tile t).clk.stepAt = s.now ∧
      keepsMemory s z) ∧
    (y.clk.step < y.target → y.clk.stepAt + 200 ≤ s.now → leadsTo (.stepChange t) s fun z => (z.tile t).clk.step = y.clk.step + 1 ∧
      (z.tile t).clk.stepAt = s.now ∧ keepsMemory s z) ∧
    (y.clk.step = y.target ∨ (y.clk.step < y.target ∧ s.now < y.clk.stepAt + 200) → stays (.stepChange t)) ∧
    (∀ e : Alarm, e = .external ∨ (e = .thermal n ∧ p.threshold ≤ n) ∨ e = .steward → leadsTo (.alarmThrottle e) s fun z =>
      z.plat.power.alarmed = true ∧ z.plat.power.throttled = true ∧ keepsMemory s z ∧
      (p.throttled = false → ∀ u ∈ s.liveTiles, (z.tile u).clk.thr = true ∧ notified z u 0 .throttleNotice) ∧
      (p.throttled = true → z.tiles = s.tiles)) ∧
    (n < p.threshold → stays (.alarmThrottle (.thermal n))) ∧
    (leadsTo (.alarmClear n) s fun z => z.tiles = s.tiles ∧
      z.plat.power = if p.alarmed && !(p.alarm n false).alarmed then { p.alarm n false with clearedAt := s.now } else p.alarm n false) ∧
    (p.throttled = true → p.alarmed = false → p.clearedAt + wait_ ≤ s.now → leadsTo .throttleRelease s fun z =>
      z.plat.power.throttled = false ∧ (∀ u ∈ s.liveTiles, (z.tile u).clk.thr = false) ∧ keepsMemory s z) ∧
    (p.throttled = false ∨ p.alarmed = true ∨ s.now < p.clearedAt + wait_ → stays .throttleRelease) ∧
    (y.clk.clamp < n → 0 < y.clk.step → y.clk.clampedAt + 1000 ≤ s.now → leadsTo (.currentClamp t n) s fun z =>
      (z.tile t).clk.step = y.clk.step - 1 ∧ (z.tile t).clk.clampedAt = s.now ∧ keepsMemory s z) ∧
    (n ≤ y.clk.clamp ∨ y.clk.step = 0 ∨ s.now < y.clk.clampedAt + 1000 → stays (.currentClamp t n)) ∧
    (n < 105 → stays (.thermalTrip n)) ∧
    (105 ≤ n → s.plat.root.phase = .released → leadsTo (.thermalTrip n) s fun z => z.plat.root.phase = .standby ∧
      z.plat.power.tripped = true ∧ z.tiles = [] ∧ (∀ q, z.eth q = s.eth q) ∧
      ∀ g, z.galley g = { s.galley g with mapped := false }) ∧
    (leadsTo (.ballast t) s fun z => (z.tile t).clk = { y.clk with ballastUntil := s.now + 2000 } ∧ keepsMemory s z) ∧
    ((s.core t c).quiet = true → 64 ≤ (s.core t c).issue.idle → leadsTo (.coreClockGate t c) s fun z =>
      (z.core t c).issue.gated = true ∧ keepsMemory s z) ∧
    ((s.core t c).quiet = false ∨ (s.core t c).issue.idle < 64 → stays (.coreClockGate t c)) ∧
    ((∀ k, k < 4 → (s.core t k).issue.gated = true) → y.clk.idleSince + 10000 ≤ s.now → leadsTo (.tileSleep t) s fun z =>
      (z.tile t).clk = { y.clk with asleep := true } ∧ keepsMemory s z) ∧
    (y.clk.asleep = true → leadsTo (.tileWake t) s fun z => (z.tile t).clk = { y.clk with asleep := false, idleSince := s.now } ∧
      keepsMemory s z) ∧
    (y.clk.asleep = false → stays (.tileWake t)) ∧
    (p.stewardRunning = true → leadsTo .stewardHeartbeat s fun z => z.plat.power = { p with heartbeatAt := s.now, hung := false, updating := false } ∧
      keepsMemory s z ∧ (p.hung = true ∨ p.updating = true → ∀ q ∈ s.galleys.serviceTags, ∀ u, s.tileOf q.2 = some u →
        notified z u 3 .powerSteward)) ∧
    (p.stewardRunning = false → stays .stewardHeartbeat ∧ stays .stewardHung) ∧
    (p.stewardRunning = true → p.hung = false → p.updating = false →
      (p.heartbeatAt + 10000000 ≤ s.now → leadsTo .stewardHung s fun z => z.plat.power = { p with hung := true } ∧ keepsMemory s z ∧
        ∀ q ∈ s.galleys.serviceTags, ∀ u, s.tileOf q.2 = some u → notified z u 3 .powerSteward) ∧
      (s.now < p.heartbeatAt + 10000000 → stays .stewardHung) ∧
      leadsTo (.zoneCapSet n c d t) s fun z => z.plat.power.zcaps.find n = some (c % 32) ∧ keepsMemory s z ∧
        ∀ u k, s.tiles.find u = some k → (z.tile u).clk = if zoneOf u = n then { k.clk with zcap := c % 32, clamp := d } else k.clk) ∧
    (y.clk.lock = true → y.clk.hold = false → 0 < y.clk.depth →
      (∀ x, neighbour t y.clk.src.toNat = some x → (s.tile x).place.live = false) → leadsTo (.clockHoldover t) s fun z =>
        let k := (z.tile t).clk
        notified z t 0 .clockHoldover ∧ keepsMemory s z ∧ k.lock = true ∧ ((k.hold = true ∧ k.src = y.clk.src ∧ k.depth = y.clk.depth) ∨
          ∃ i x, neighbour t i = some x ∧ (s.tile x).place.live = true ∧ k.hold = false ∧ k.src = BitVec.ofNat 2 i ∧
            k.depth = (s.tile x).clk.depth + 1)) ∧
    (∀ u time sent, s.net[n]? = some (.timing u time sent) → leadsTo (.timingToken n) s fun z => z.net = s.net.eraseIdx n ∧
      (z.tile u).clk = (s.tile u).clk.aimAt s.now ((time : Int) + (48 + 24 * crossings 0 u : Nat)) ∧ keepsMemory s z) ∧
    (∀ q, m.port = some q →
      ((s.eth q).linkUp = true → s.now < m.lastSync + 10 ^ 10 → stays .timePortLoss) ∧
      ((s.eth q).linkUp = false ∨ m.lastSync + 10 ^ 10 ≤ s.now → leadsTo .timePortLoss s fun z => z.plat.time.freeRunning = true ∧
        z.plat.time.lastSync = s.now ∧ z.plat.time.port ≠ some q ∧ z.tiles = s.tiles)) ∧
    (m.lastToken + 1000 ≤ s.now → leadsTo .edgeTimeMasterTick s fun z => z.plat.time.lastToken = s.now ∧ z.tiles = s.tiles ∧
      ∀ u ∈ s.liveTiles, .timing u ((s.now : Int) + m.offset).toNat s.now ∈ z.net) ∧
    (s.now < m.lastToken + 1000 → stays .edgeTimeMasterTick) ∧
    (n < 4 → (s.eth n).linkUp = true → leadsTo (.syncMessage n d) s fun z => (z.eth n).syncSeen = true ∧ z.tiles = s.tiles ∧
      (m.port = some n → z.plat.time = { m with offset := (d : Int) - s.now, lastSync := s.now, freeRunning := false })) ∧
    (y.place.live = true → c < 4 → leadsTo (.internalError t c n) s fun z => notified z t c .machineCheck ∧ keepsMemory s z) ∧
    (y.place.live = true → leadsTo (.tileLost t) s fun z => (z.tile t).place.live = false ∧ keepsMemory s z ∧
      (∀ k, y.place.chase = some k → (z.chase k).struck = true ∧ t ∈ (z.chase k).dead) ∧
      ∀ q ∈ s.galleys.serviceTags, ∀ u, s.tileOf q.2 = some u → notified z u 3 .tileLost) ∧
    (y.place.live = false → stays (.tileLost t) ∧ stays (.internalError t c n)) ∧
    (∀ sp : Space, sp ≠ .d → y.place.live = true → c < 4 → 16 * n < sp.size →
      leadsTo (.softError t sp.code c n true) s fun z => n ∈ (z.localMem t c sp).bad ∧ keepsMemory s z) ∧
    stays (.softError t d c n false)

/-- R450 to R460, R465: The commands of the root of trust. A command that arrives as the next frame of its session and is well formed is
answered, with status 1 where the state of the device does not allow it and 2 where its request is malformed; each has the effect of its
rule. Power-up boots a stage that verifies, or goes to ROM recovery. A flash write that is under way ends before what comes next, unless
power is lost, which is the model's choice (log entry 31). -/
def Obligations.RootOfTrustBootsAndAnswers : Prop :=
  ∀ (port : Nat) (frame : Frame) (tests : SelfTest) (image : List Byte) (written : Nat) (s : State),
    let y := s.finishFlash
    let body := frame.body.drop 8
    let tag := leField frame.body 4 4
    let asked (op code : Nat) : Prop := port < 4 ∧ frame.op = op ∧ y.receipt port op frame = .accepted ∧ 8 ≤ frame.body.length ∧
      leField frame.body 0 2 = code ∧ leField frame.body 2 2 = 0
    let here (op : Nat) : State := y.acceptFrame port op frame
    let answers (e : Instr) (op code status : Nat) (rest : List Byte) (s1 : State) : Prop :=
      leadsTo e s fun z => z = s1.answer port op code status tag rest
    let runs (op code : Nat) : Prop := asked op code ∧ (here op).plat.root.serves code = true
    let r := y.plat.root
    let turned (e : Instr) (op code : Nat) : Prop := asked op code → (here op).plat.root.serves code = false → answers e op code 1 [] (here op)
    (turned (.identity port frame) 5 1 ∧ turned (.quote port frame) 5 2 ∧ turned (.spareLog port frame) 5 3 ∧
      turned (.measureLog port frame) 5 4 ∧ turned (.diag port frame) 5 5 ∧ turned (.session port frame) 5 6 ∧
      turned (.image port frame) 6 0x101 ∧ turned (.flashWrite port frame) 6 0x102 ∧ turned (.svnCommit port frame) 6 0x103 ∧
      turned (.provision port frame) 6 0x104 ∧ turned (.deploy port frame) 6 0x105 ∧ turned (.return_ port frame) 6 0x106 ∧
      turned (.standby port frame) 6 0x107 ∧ turned (.loadSteward port frame) 6 0x108 ∧ turned (.debugRequest port frame) 6 0x109 ∧
      turned (.debugResponse port frame) 6 0x10A ∧ turned (.timePort port frame) 6 0x10B) ∧
    (runs 5 1 → (body = [] → answers (.identity port frame) 5 1 0 r.identity (here 5)) ∧
      (body ≠ [] → answers (.identity port frame) 5 1 2 [] (here 5))) ∧
    (runs 5 2 → (body.length ≠ 32 → answers (.quote port frame) 5 2 2 [] (here 5)) ∧
      (body.length = 32 → r.fuses.life = 0 → answers (.quote port frame) 5 2 1 [] (here 5)) ∧
      (body.length = 32 → r.fuses.life ≠ 0 → answers (.quote port frame) 5 2 0 (r.quote body) (here 5))) ∧
    (∀ first count, body = bytesOfNat 4 first ++ bytesOfNat 4 count → first < 2 ^ 32 → 0 < count →
      (runs 5 3 → count ≤ 256 → answers (.spareLog port frame) 5 3 0 ((y.plat.spareLog.drop first).take count).flatten (here 5)) ∧
      (runs 5 4 → count ≤ 100 → answers (.measureLog port frame) 5 4 0 ((r.log.drop first).take count).flatten (here 5))) ∧
    (runs 5 5 → body = [] → answers (.diag port frame) 5 5 0
      (r.countBytes ++ bytesOfNat 4 r.defects.length ++ r.defects.flatMap fun e => bytesOfNat 2 e.toNat) (here 5)) ∧
    (∀ chase, runs 5 6 → body = bytesOfNat 2 chase ++ bytesOfNat 2 0 → chase < 4096 → (here 5).ccbValid ((here 5).ccbOf chase) = true →
      ∀ i, i < 255 → (((here 5).eth port).session (i + 1)).word.getLsbD 12 = false →
        (∀ j, j < i → (((here 5).eth port).session (j + 1)).word.getLsbD 12 = true) → ∃ s1,
        answers (.session port frame) 5 6 0 (bytesOfNat 2 (i + 1)) s1 ∧
        ((s1.eth port).session (i + 1)).word = BitVec.ofNat 64 (chase + 4096) ∧ s1.tiles = y.tiles) ∧
    (∀ i, runs 6 0x101 → r.chunk 0x101 body = .whole i → leField i 5 1 = 3 → r.stewardOk = false →
      ((here 6).modRoot fun k => { k with download := none }).plat.root.verifies 3 i = true → ∃ s1,
      answers (.image port frame) 6 0x101 0 [] s1 ∧ s1.plat.root.steward = i ∧ s1.plat.root.stewardOk = true) ∧
    (∀ d, runs 6 0x101 → r.chunk 0x101 body = .more d → answers (.image port frame) 6 0x101 0 []
      ((here 6).modRoot fun k => { k with download := some d })) ∧
    (∀ i, runs 6 0x102 → r.chunk 0x102 body = .whole i →
      (r.verifies 1 i = true → leadsTo (.flashWrite port frame) s fun z => z.plat.root.writing = some (i, some (port, tag)) ∧
        z.plat.root.flash.take 128 = List.replicate 128 0xFF ∧ z.plat.root.fuses = r.fuses) ∧
      (r.verifies 1 i = false → ∃ s1, answers (.flashWrite port frame) 6 0x102 3 [] s1 ∧ s1.plat.root.flash = r.flash)) ∧
    (runs 6 0x103 → body = [] →
      (imageSvn r.stage ≤ r.fuses.svnCount → answers (.svnCommit port frame) 6 0x103 1 [] (here 6)) ∧
      (r.fuses.svnCount < imageSvn r.stage → ∃ s1, answers (.svnCommit port frame) 6 0x103 0 [] s1 ∧
        s1.plat.root.fuses = { r.fuses with svn := r.fuses.svn ||| thermometer (imageSvn r.stage) })) ∧
    (∀ e code was becomes, (e = Instr.provision port frame ∧ code = 0x104 ∧ was = 0 ∧ becomes = 1) ∨
        (e = Instr.deploy port frame ∧ code = 0x105 ∧ was = 1 ∧ becomes = 3) ∨
        (e = Instr.return_ port frame ∧ code = 0x106 ∧ was = 2 ∧ becomes = 7 ∧ r.debug = 2) → runs 6 code → body = [] →
      (r.fuses.lifecycle ≠ was → answers e 6 code 1 [] (here 6)) ∧
      (r.fuses.lifecycle = was → ∃ s1, answers e 6 code 0 [] s1 ∧
        s1.plat.root.fuses = { r.fuses with life := r.fuses.life ||| BitVec.ofNat 3 becomes } ∧ s1.tiles = y.tiles)) ∧
    (runs 6 0x106 → body = [] → r.debug ≠ 2 → answers (.return_ port frame) 6 0x106 1 [] (here 6)) ∧
    (runs 6 0x107 → body = [] → leadsTo (.standby port frame) s fun z => z.plat.root.phase = .standby ∧ z.tiles = [] ∧ z.net = [] ∧
      z.plat.root.fuses = r.fuses ∧ z.plat.root.m = r.m ∧ ∀ g, z.galley g = { y.galley g with mapped := false }) ∧
    (∀ i, runs 6 0x108 → r.download = none → r.chunk 0x108 body = .whole i → leField body 0 4 = 0 → r.verifies 3 i = true → ∃ s1,
      answers (.loadSteward port frame) 6 0x108 0 [] s1 ∧ s1.plat.root.steward = i ∧ s1.plat.power.updating = true) ∧
    (∀ level, runs 6 0x109 → body = [BitVec.ofNat 8 level] → level = 1 ∨ level = 2 →
      ((here 6).plat.root.grant level = .refused → answers (.debugRequest port frame) 6 0x109 1 [] (here 6)) ∧
      ((here 6).plat.root.grant level = .challenge → ∃ s1 nonce, answers (.debugRequest port frame) 6 0x109 0 nonce s1 ∧
        s1.plat.root.nonce = some (level, nonce) ∧ s1.plat.root.debug = r.debug)) ∧
    (runs 6 0x10A → body.length = 96 →
      (r.nonce = none → ∃ s1, answers (.debugResponse port frame) 6 0x10A 3 [] s1 ∧ s1.plat.root.debug = r.debug) ∧
      (∀ level nonce, r.nonce = some (level, nonce) →
        let valid := sha512 (body.take 32) == fuseBytes 64 r.fuses.dahash.toNat &&
          edVerify (body.take 32) (nonce ++ fuseBytes 8 r.fuses.serial.toNat ++ [BitVec.ofNat 8 level]) (body.drop 32)
        ∃ s1, answers (.debugResponse port frame) 6 0x10A (if valid then 0 else 3) [] s1 ∧ s1.plat.root.nonce = none ∧
          s1.plat.root.debug = if valid then max r.debug level else r.debug)) ∧
    (∀ p, runs 6 0x10B → body = [BitVec.ofNat 8 p] → p < 4 → ∃ s1, answers (.timePort port frame) 6 0x10B 0 [] s1 ∧
      s1.plat.time.port = some p ∧ s1.plat.time.lastSync = s.now ∧ s1.tiles = y.tiles) ∧
    (r.phase = .powerUp ∨ r.phase = .standby →
      let b : Root := { Root.reset with fuses := r.fuses, flash := r.flash }
      (b.verifies 1 b.flashImage = false → leadsTo (.powerUpBoot tests) s fun z => z.plat.root.phase = .romRecovery ∧ z.tiles = [] ∧
        z.now = 0) ∧
      (b.verifies 1 b.flashImage = true → leadsTo (.powerUpBoot tests) s fun z => z.plat.root.stage = b.flashImage ∧ z.now = 0 ∧
        (z.plat.root.phase = .gradeNone ∨ z.plat.root.phase = .awaitImages) ∧ z.plat.root.fuses = r.fuses)) ∧
    (r.phase = .romRecovery → (y.eth port).linkUp = true →
      (r.verifies 1 image = true → leadsTo (.romRecovery port image) s fun z => z.plat.root.flash = image ∧ z.plat.root.phase = .powerUp) ∧
      (r.verifies 1 image = false → leadsTo (.romRecovery port image) s fun z => z = y)) ∧
    (leadsTo (.powerLoss written) s fun z => z.plat.root.fuses = s.plat.root.fuses ∧ z.tiles = State.reset.tiles ∧ z.dram = State.reset.dram ∧
      (s.plat.root.writing = none → z.plat.root.flash = s.plat.root.flash) ∧
      ∀ i q, s.plat.root.writing = some (i, q) → i.length ≤ written → z.plat.root.flash = i) ∧
    (port < 4 → s.plat.root.phase = .released ∨ s.plat.root.phase = .awaitImages ∨ s.plat.root.phase = .gradeNone ∨
      s.plat.root.phase = .standby → leadsTo (.portLinkUp port) s fun z => (z.eth port).linkUp = true ∧ z.tiles = s.tiles) ∧
    (4 ≤ port ∨ s.plat.root.phase = .powerUp → leadsTo (.portLinkUp port) s fun z => z = s)

/-- R462 to R471: The Ethernet ports. A Bileel frame that is malformed, or that its session does not carry, is dropped and counted; one out of
order is acknowledged and discarded; WRITE, READ and KICK act through the chase of their session, and ACK is heard. An ingest frame goes to
the first ring that takes it, or is counted; pauses are sent while a ring lacks headroom, and a received pause holds transmission. Frames
come as events from outside (log entry 10); pauses are counted in reference time (log entry 32). -/
def Obligations.EthernetPortsCarryFramesAndRings : Prop :=
  ∀ (port ring n : Nat) (frame : Frame) (eth : EthFrame) (status : BitVec 16) (seq index : BitVec 32) (pause : BitVec 8) (quanta : List Nat)
      (s : State),
    let e := s.eth port
    let counts (z : State) (k : Nat) : Prop := (z.eth port).counters.get 0 k = e.counters.get 0 k + 1
    let g := frame.addr.toNat % 4096
    let ccb := s.ccbOf (s.sessionChase port frame.session)
    let stays (i : Instr) : Prop := leadsTo i s fun z => z = s
    let heard (op : Nat) : State := s.acceptFrame port op frame
    let r : Frame := { frame with length := frame.body.length }
    (∀ i op, (i = Instr.bileelWrite port frame ∧ op = 1) ∨ (i = Instr.bileelKick port frame ∧ op = 3) ∨
        (i = Instr.bileelAck port frame ∧ op = 7) →
      (4 ≤ port ∨ frame.op ≠ op → stays i) ∧
      (port < 4 → frame.op = op →
        (e.linkUp = false ∨ s.moduleHeld 0xD port = true ∨ frameMalformed frame = true ∨ s.carries port frame.session op = false →
          leadsTo i s fun z => counts z 0 ∧ counts z 4 ∧ z.tiles = s.tiles ∧ z.dram = s.dram) ∧
        (e.linkUp = true → s.moduleHeld 0xD port = false → frameMalformed frame = false → s.carries port frame.session op = true → op ≠ 7 →
          frame.seq ≠ (e.session frame.session).expect → leadsTo i s fun z => counts z 0 ∧ z.tiles = s.tiles ∧ z.dram = s.dram ∧
            ((z.eth port).session frame.session).expect = (e.session frame.session).expect))) ∧
    (port < 4 → frame.op = 1 → s.receipt port 1 frame = .accepted →
      (∀ s1, (heard 1).chaseWrite (s.portTile port) 3 ccb frame.addr.toNat frame.length (natOfBytes frame.body) = (s1, .ok ()) →
        leadsTo (.bileelWrite port frame) s fun z => z = s1.sendAck port frame.session ∧
          ((z.eth port).session frame.session).acked = frame.ack) ∧
      (∀ s1 f, (heard 1).chaseWrite (s.portTile port) 3 ccb frame.addr.toNat frame.length (natOfBytes frame.body) = (s1, .error f) →
        leadsTo (.bileelWrite port frame) s fun z => z = s.reportFrame port frame f)) ∧
    (port < 4 → frame.op = 2 → s.receipt port 2 r = .accepted → frame.length ≤ 8192 →
      ∀ (s1 : State) v, (s.acceptFrame port 2 r).chaseRead (s.portTile port) ccb frame.addr.toNat frame.length = (s1, .ok v) →
        leadsTo (.bileelRead port frame) s fun z => z = s1.sendFrame port frame.session 2 frame.addr (bytesOfNat frame.length v)) ∧
    (port < 4 → frame.op = 3 → s.receipt port 3 frame = .accepted →
      let y := (heard 3).sendAck port frame.session
      let mine := y.tableRead (y.blockOf g + 4) 2 = .ok ((heard 3).sessionChase port frame.session)
      (mine → leadsTo (.bileelKick port frame) s fun z => keepsMemory s z ∧ (z.galley g).via = some (port, frame.session) ∧
        z.galleys.kicks = s.galleys.kicks ++ [(g, BitVec.ofNat 32 (frame.addr.toNat / 2 ^ 32))]) ∧
      (¬mine → leadsTo (.bileelKick port frame) s fun z => counts z 0 ∧ counts z 4 ∧ z.galleys = s.galleys ∧ keepsMemory s z)) ∧
    (port < 4 → frame.op = 7 → s.receipt port 7 frame = .accepted → leadsTo (.bileelAck port frame) s fun z => z.tiles = s.tiles ∧
      ((z.eth port).session frame.session).acked = frame.ack ∧
      ((z.eth port).session frame.session).expect = (e.session frame.session).expect) ∧
    (∀ q k, (s.galley (n % 4096)).via = some (q, k) → leadsTo (.completion n status seq index) s fun z => z = s.sendFrame q k 4 0
      (commandBody 0 0 0 (bytesOfNat 2 (n % 4096) ++ bytesOfNat 2 status.toNat ++ bytesOfNat 4 seq.toNat ++ bytesOfNat 4 index.toNat ++
        bytesOfNat 4 0))) ∧
    ((s.galley (n % 4096)).via = none → stays (.completion n status seq index)) ∧
    (4 ≤ port ∨ e.linkUp = false ∨ s.moduleHeld 0xD port = true → stays (.ingestFrame port eth)) ∧
    (port < 4 → e.linkUp = true → s.moduleHeld 0xD port = false →
      (9216 < eth.bytes.length + 4 → leadsTo (.ingestFrame port eth) s fun z => counts z 0 ∧ counts z 2 ∧ z.tiles = s.tiles) ∧
      (eth.bytes.length + 4 ≤ 9216 →
        ((∀ r, r < 256 → s.ringMatches port eth r = false) → leadsTo (.ingestFrame port eth) s fun z => counts z 0 ∧ counts z 3 ∧
          z.tiles = s.tiles) ∧
        (∀ r, r < 256 → s.ringMatches port eth r = true → (∀ q, q < r → s.ringMatches port eth q = false) →
          let rec_ := ingestRecord port eth.time.toNat eth.bytes
          let y := s.modEth port (·.count 0)
          (s.ringFits port r rec_.length = false → leadsTo (.ingestFrame port eth) s fun z => z = y.dropIngest port r ∧
            r ∈ (z.eth port).dropping) ∧
          (s.ringFits port r rec_.length = true →
            (∀ s1, y.writeRecord port r rec_ = (s1, none) → leadsTo (.ingestFrame port eth) s fun z =>
              (z.eth port).dropping.contains r = false ∧ z.tiles = s1.tiles ∧ z.dram = s1.dram) ∧
            (∀ s1 f, y.writeRecord port r rec_ = (s1, some f) → leadsTo (.ingestFrame port eth) s fun z =>
              (z.eth port).stuck.find r = some rec_ ∧ z.tiles = s.tiles ∧ z.dram = s.dram))))) ∧
    (leadsTo (.droppedFrame port n) s fun z => counts z 0 ∧ counts z (if 9216 < n then 2 else 1) ∧ z.tiles = s.tiles) ∧
    (e.pausing.find ring ≠ none →
      (2 * s.ringHeadroom port ring ≤ s.ringFree port ring → leadsTo (.pauseResume port ring) s fun z =>
        (z.eth port).pausing.find ring = none ∧ z.tiles = s.tiles) ∧
      (s.ringFree port ring < 2 * s.ringHeadroom port ring → stays (.pauseResume port ring)) ∧
      (s.ringFree port ring < s.ringHeadroom port ring → leadsTo (.pauseRenew port ring) s fun z => counts z 5 ∧
        (z.eth port).pausing.find ring = some s.now ∧ z.tiles = s.tiles) ∧
      (s.ringHeadroom port ring ≤ s.ringFree port ring → stays (.pauseRenew port ring))) ∧
    (e.pausing.find ring = none → stays (.pauseResume port ring) ∧ stays (.pauseRenew port ring)) ∧
    (∀ f s1, (∀ h ∈ e.held, h.1 ≠ ring) → s.retryRecord port ring = (s1, some f) → leadsTo (.ingestRingFault port ring) s fun z =>
      (z.eth port).held = e.held ++ [(ring, f.va, f.cause)] ∧ keepsMemory s z ∧
      (f.cause ≠ .dramPoison → ∀ t, s.ringTile port ring = some t →
        (z.tile t).place.tasks.length = (s.tile t).place.tasks.length + 1)) ∧
    leadsTo (.pfcReceived port pause quanta) s fun z => counts z 0 ∧ z.tiles = s.tiles ∧ ∀ i, i < 8 →
      (pause.getLsbD i = true → (z.eth port).pausedTo.get 0 i =
        if quanta.getD i 0 = 0 then 0 else s.now + (64 * quanta.getD i 0 + 99) / 100) ∧
      (pause.getLsbD i = false → (z.eth port).pausedTo.get 0 i = e.pausedTo.get 0 i)

/-- R458, R459, R461, R473 to R475: The links and the JTAG port. A link takes the flit that it expects, passes over a duplicate and asks again
for any other; it sends again from the flit that the other end names; a failed lane takes the spare, or halves the link. The JTAG
instructions capture and drive the pins and read the identity, ask for debug and answer its challenge, trace and halt as far as the granted
level reaches, and else act as BYPASS. Flits and JTAG instructions come as events from outside (log entry 10). -/
def Obligations.LinksRetryAndJtagReaches : Prop :=
  ∀ (l lane t c item w level : Nat) (flit : FlitIn) (first : BitVec 12) (cells key sig : List Byte) (bit : Bool) (s : State),
    let k := s.link l
    let stays (i : Instr) : Prop := leadsTo i s fun z => z = s
    let life := s.plat.root.fuses.lifecycle
    let j := s.plat.jtag
    let bypasses (i : Instr) (data : List Byte) : Prop := leadsTo i s fun z => z.plat.jtag.ir = 0xFF ∧ z.tiles = s.tiles ∧
      z.plat.jtag.out = bytesOfNat data.length (2 * natOfBytes data)
    (16 ≤ l ∨ s.linkServes l = false → stays (.flitReceive l flit)) ∧
    (l < 16 → s.linkServes l = true →
      (flit.crcOk = true → isDuplicate flit.seq k.rxNext = true → stays (.flitReceive l flit)) ∧
      (flit.crcOk = false ∨ (isDuplicate flit.seq k.rxNext = false ∧ flit.seq ≠ k.rxNext) → leadsTo (.flitReceive l flit) s fun z =>
        z.link l = { k with nak := some k.rxNext } ∧ z.tiles = s.tiles ∧ z.net = s.net) ∧
      (flit.crcOk = true → flit.seq = k.rxNext → leadsTo (.flitReceive l flit) s fun z => (z.link l).rxNext = k.rxNext + 1 ∧
        (z.link l).nak = none ∧ z.tiles = s.tiles ∧
        ((k.partialTok ++ flit.payload).length < 168 → (z.link l).partialTok = k.partialTok ++ flit.payload ∧ z.net = s.net) ∧
        (168 ≤ (k.partialTok ++ flit.payload).length → (z.link l).partialTok = []))) ∧
    (∀ x ∈ k.retry, x.seq = first → leadsTo (.nakRetransmit l first) s fun z => z.tiles = s.tiles ∧ z.net = s.net ∧
      (k.waiting = [] → (z.link l).retry = k.retry.dropWhile (·.seq != first) ∧
        (z.link l).wire = k.wire ++ k.retry.dropWhile (·.seq != first))) ∧
    ((∀ x ∈ k.retry, x.seq ≠ first) → first ≠ k.txNext → leadsTo (.nakRetransmit l first) s fun z => z.link l = k ∧ z.tiles = s.tiles) ∧
    (16 ≤ l ∨ 9 ≤ lane ∨ lane ∈ k.failed ∨ k.lanes = 0 → stays (.laneFailure l lane)) ∧
    (l < 16 → lane < 9 → lane ∉ k.failed → k.lanes ≠ 0 →
      (k.spareFree = true → leadsTo (.laneFailure l lane) s fun z => keepsMemory s z ∧
        z.link l = { k with failed := lane :: k.failed, spareFree := false } ∧
        z.plat.spareLog.length = s.plat.spareLog.length + 1 ∧
        ∀ u, s.linkTile l = some u → (z.core u 0).npend.getLsbD (noticeBit .spareSwap) = true) ∧
      (k.spareFree = false → leadsTo (.laneFailure l lane) s fun z => keepsMemory s z ∧
        (z.link l).lanes = (if k.lanes = 8 then 4 else if k.lanes = 4 then 2 else 0) ∧
        ∀ u, s.linkTile l = some u → (z.core u 0).npend.getLsbD (noticeBit .linkDegraded) = true)) ∧
    (leadsTo .testLogicReset s fun z => z.plat.jtag = { j with ir := 1, drive := false, out := [] } ∧ z.tiles = s.tiles) ∧
    (leadsTo .idcode s fun z => z.plat.jtag = { j with ir := 1, drive := false, out := [0x5B, 0x1C, 0x57, 0x0F] } ∧ z.tiles = s.tiles) ∧
    (leadsTo (.bypass bit) s fun z => z.tiles = s.tiles ∧
      z.plat.jtag = { j with ir := 0xFF, drive := false, bypass := bit, out := [if j.ir = 0xFF ∧ j.bypass = true then 1 else 0] }) ∧
    (leadsTo (.samplePreload cells) s fun z => z.tiles = s.tiles ∧ z.plat.jtag.ir = 2 ∧ z.plat.jtag.cells = cells ∧ z.plat.jtag.drive = false) ∧
    (life = 0 ∨ life = 3 → leadsTo (.extest cells) s fun z => z.tiles = s.tiles ∧ z.plat.jtag.ir = 0 ∧ z.plat.jtag.cells = cells ∧
      z.plat.jtag.drive = true) ∧
    (life = 1 ∨ life = 2 → bypasses (.extest cells) cells) ∧
    (s.rootRuns = false → stays (.dbgreq level) ∧ stays (.dbgresp key sig)) ∧
    (s.rootRuns = true →
      (s.finishFlash.plat.root.grant level = .refused ∨ (level ≠ 1 ∧ level ≠ 2) → leadsTo (.dbgreq level) s fun z =>
        z.plat.jtag = { j with ir := 0x20, drive := false, out := [] } ∧ z.plat.root.debug = s.plat.root.debug) ∧
      (level = 1 ∨ level = 2 → s.finishFlash.plat.root.grant level = .challenge → leadsTo (.dbgreq level) s fun z =>
        ∃ nonce, z.plat.root.nonce = some (level, nonce) ∧ z.plat.jtag = { j with ir := 0x20, drive := false, out := nonce } ∧
          z.plat.root.debug = s.plat.root.debug) ∧
      (level = 1 ∨ level = 2 → s.finishFlash.plat.root.grant level = .free → leadsTo (.dbgreq level) s fun z =>
        z.plat.jtag.ir = 0x20 ∧ z.plat.root.debug = max s.plat.root.debug level) ∧
      (s.plat.root.nonce = none → leadsTo (.dbgresp key sig) s fun z => z.plat.jtag = { j with ir := 0x21, drive := false, out := [3] } ∧
        z.plat.root.debug = s.plat.root.debug) ∧
      ∀ asked nonce, s.plat.root.nonce = some (asked, nonce) →
        let fuses := s.plat.root.fuses
        let valid := sha512 key == fuseBytes 64 fuses.dahash.toNat &&
          edVerify key (nonce ++ fuseBytes 8 fuses.serial.toNat ++ [BitVec.ofNat 8 asked]) sig
        leadsTo (.dbgresp key sig) s fun z =>
          z.plat.jtag = { j with ir := 0x21, drive := false, out := [if valid then 0 else 3] } ∧ z.plat.root.nonce = none ∧
          z.plat.root.debug = if valid then max s.plat.root.debug asked else s.plat.root.debug) ∧
    (s.debugReaches 1 = true → leadsTo (.trace t item w) s fun z => z.tiles = s.tiles ∧
      z.plat.jtag = { j with ir := 0x30, drive := false, out := bytesOfNat 8 (s.traceWord t item w).toNat }) ∧
    (s.debugReaches 1 = false → bypasses (.trace t item w) (bytesOfNat 8 0)) ∧
    (s.debugReaches 2 = false → bypasses (.halt t c level) (bytesOfNat 1 level)) ∧
    (s.debugReaches 2 = true → (s.tile t).place.live = true → c < 4 →
      ((s.core t c).issue.halted = false → leadsTo (.halt t c 0) s fun z => keepsMemory s z ∧ (z.core t c).issue.halted = true ∧
        (z.core t c).npend.getLsbD (noticeBit .debugHalt) = true) ∧
      ((s.core t c).issue.halted = true → leadsTo (.halt t c 1) s fun z => keepsMemory s z ∧ (z.core t c).issue.halted = false ∧
        (z.core t c).issue.stepping = true) ∧
      (leadsTo (.halt t c 2) s fun z => keepsMemory s z ∧ (z.core t c).issue.halted = false ∧ (z.core t c).issue.stepping = false))

/-- R435: The available step is the highest that is at most both caps and not barred by the plan; with every such step barred it is the lowest
step that the plan leaves. The target is the lower of the highest request of the tile's cores and the available step, and the available step
where that is barred. -/
def Obligations.TargetStepFollowsCapsAndPlan : Prop :=
  ∀ y : Tile,
    let k := y.clk
    let within (n : Nat) : Prop := n ≤ k.tcap ∧ n ≤ k.zcap
    ((∃ n, within n ∧ k.barred n = false) → within k.avail ∧ k.barred k.avail = false ∧
      ∀ n, within n → k.barred n = false → n ≤ k.avail) ∧
    ((∀ n, within n → k.barred n = true) → (∃ n, n < 32 ∧ k.barred n = false) → k.avail < 32 ∧ k.barred k.avail = false ∧
      ∀ n, n < k.avail → k.barred n = true) ∧
    (∀ c, c < 4 → (y.core c).freqReq ≤ y.request) ∧ (∃ c, c < 4 ∧ y.request = (y.core c).freqReq) ∧
    y.target = if k.barred (min y.request k.avail) then k.avail else min y.request k.avail
end

