-- ==== Sys2Proof/Laws/Sparse.lean ====
section
/-! SUPPORT. Laws of the sparse maps and memories: a read after a write, what a write leaves alone, and that every write keeps the
canonical form. -/

namespace Sys2Proof.Machine

variable {α : Type}

/-! ## Listing -/

@[simp] theorem Sparse.find_nil (k : Nat) : Sparse.find ([] : Sparse α) k = none := rfl

theorem Sparse.find_put (m : Sparse α) (k j : Nat) (v : α) :
    (m.put k v).find j = if j = k then some v else m.find j := by
  induction m with
  | nil => simp only [Sparse.put, Sparse.find]; grind
  | cons e m ih =>
    obtain ⟨i, w⟩ := e
    simp only [Sparse.put]
    split
    · subst i; simp only [Sparse.find]; grind
    · split
      · simp only [Sparse.find]; grind
      · simp only [Sparse.find, ih]; grind

theorem Sparse.get_put (d : α) (m : Sparse α) (k j : Nat) (v : α) :
    (m.put k v).get d j = if j = k then v else m.get d j := by
  unfold Sparse.get; rw [Sparse.find_put]; split <;> rfl

@[simp] theorem Sparse.get_put_self (d : α) (m : Sparse α) (k : Nat) (v : α) : (m.put k v).get d k = v := by
  simp [Sparse.get_put]

theorem Sparse.get_put_ne (d : α) (m : Sparse α) {k j : Nat} (v : α) (h : j ≠ k) : (m.put k v).get d j = m.get d j := by
  simp [Sparse.get_put, h]

@[simp] theorem Sparse.get_nil (d : α) (k : Nat) : Sparse.get d ([] : Sparse α) k = d := rfl

theorem Sparse.find_erase (m : Sparse α) (k j : Nat) : (m.erase k).find j = if j = k then none else m.find j := by
  induction m with
  | nil => simp [Sparse.erase]
  | cons e m ih => obtain ⟨i, w⟩ := e; simp only [Sparse.erase, Sparse.find]; grind [Sparse.find]

/-! ## The canonical form -/

theorem Sparse.risingFrom_mono : ∀ (m : Sparse α) {a b : Nat}, b ≤ a → m.risingFrom a = true → m.risingFrom b = true
  | [], _, _, _, _ => rfl
  | (i, w) :: m, a, b, hab, h => by
    simp only [Sparse.risingFrom, Bool.and_eq_true, decide_eq_true_eq] at h ⊢
    exact ⟨by omega, h.2⟩

theorem Sparse.risingFrom_put : ∀ (m : Sparse α) (lo k : Nat) (v : α), m.risingFrom lo = true → lo ≤ k → (m.put k v).risingFrom lo = true
  | [], lo, k, v, _, hk => by simp [Sparse.put, Sparse.risingFrom, hk]
  | (i, w) :: m, lo, k, v, h, hk => by
    simp only [Sparse.risingFrom, Bool.and_eq_true, decide_eq_true_eq] at h
    simp only [Sparse.put]
    split
    · subst i; simp [Sparse.risingFrom, h]
    · split
      · simp only [Sparse.risingFrom, Bool.and_eq_true, decide_eq_true_eq]; exact ⟨hk, by omega, h.2⟩
      · simp only [Sparse.risingFrom, Bool.and_eq_true, decide_eq_true_eq]
        exact ⟨h.1, Sparse.risingFrom_put m _ _ _ h.2 (by omega)⟩

theorem Sparse.risingFrom_erase : ∀ (m : Sparse α) (lo k : Nat), m.risingFrom lo = true → (m.erase k).risingFrom lo = true
  | [], _, _, _ => rfl
  | (i, w) :: m, lo, k, h => by
    simp only [Sparse.risingFrom, Bool.and_eq_true, decide_eq_true_eq] at h
    have ih := Sparse.risingFrom_erase m _ k h.2
    simp only [Sparse.erase]
    split
    · exact Sparse.risingFrom_mono _ (by omega) ih
    · simp only [Sparse.risingFrom, Bool.and_eq_true, decide_eq_true_eq]; exact ⟨h.1, ih⟩

theorem Sparse.mem_put (m : Sparse α) (k : Nat) (v : α) (e : Nat × α) (h : e ∈ m.put k v) : e = (k, v) ∨ e ∈ m := by
  induction m with
  | nil => simp_all [Sparse.put]
  | cons a m ih => obtain ⟨i, w⟩ := a; simp only [Sparse.put] at h; grind

theorem Sparse.mem_erase (m : Sparse α) (k : Nat) (e : Nat × α) (h : e ∈ m.erase k) : e ∈ m := by
  induction m with
  | nil => simp_all [Sparse.erase]
  | cons a m ih => obtain ⟨i, w⟩ := a; simp only [Sparse.erase] at h; grind

/-- Writing a key keeps the canonical form. -/
theorem Sparse.wf_set [DecidableEq α] (d : α) (m : Sparse α) (k : Nat) (v : α) (h : m.wf d = true) : (m.set d k v).wf d = true := by
  simp only [Sparse.wf, Bool.and_eq_true, List.all_eq_true, decide_eq_true_eq] at h ⊢
  unfold Sparse.set
  split
  · exact ⟨Sparse.risingFrom_erase _ _ _ h.1, fun e he => h.2 e (Sparse.mem_erase _ _ _ he)⟩
  · refine ⟨Sparse.risingFrom_put _ _ _ _ h.1 (by omega), fun e he => ?_⟩
    rcases Sparse.mem_put _ _ _ _ he with rfl | h'
    · assumption
    · exact h.2 e h'

/-- What a key reads as after a write. -/
theorem Sparse.get_set [DecidableEq α] (d : α) (m : Sparse α) (k j : Nat) (v : α) :
    (m.set d k v).get d j = if j = k then v else m.get d j := by
  unfold Sparse.set
  split
  · rename_i hv
    unfold Sparse.get
    rw [Sparse.find_erase]
    split <;> simp_all
  · exact Sparse.get_put d m k j v

/-! ## Memories -/

/-- A byte written keeps the canonical form. -/
theorem Memory.wf_write (m : Memory) (a : Nat) (b : Byte) (h : m.wf = true) : (m.write a b).wf = true := Sparse.wf_set _ _ _ _ h

/-- A byte reads as what was last written to it, and every other byte as before. -/
theorem Memory.read_write (m : Memory) (a c : Nat) (b : Byte) :
    (m.write a b).read c = if c = a then b else m.read c := Sparse.get_set _ _ _ _ _

/-- Bytes written keep the canonical form. -/
theorem Memory.wf_writeNat : ∀ (n : Nat) (m : Memory) (a v : Nat), m.wf = true → (m.writeNat a n v).wf = true
  | 0, _, _, _, h => h
  | n + 1, _, a, _, h => Memory.wf_writeNat n _ _ _ (Memory.wf_write _ a _ h)

/-- Bytes outside a range written read as before. -/
theorem Memory.read_writeNat_outside : ∀ (n : Nat) (m : Memory) (a v c : Nat), (c < a ∨ a + n ≤ c) →
    (m.writeNat a n v).read c = m.read c
  | 0, _, _, _, _, _ => rfl
  | n + 1, m, a, v, c, hc => by
    rw [Memory.writeNat, Memory.read_writeNat_outside n _ _ _ _ (by omega), Memory.read_write, if_neg (by omega)]

/-- A memory that lists nothing has the canonical form. -/
theorem Memory.wf_nil : Memory.wf [] = true := rfl

end Sys2Proof.Machine
end

