-- ==== Sys2Proof/Laws/Memory.lean ====
section
/-! SUPPORT. Laws of T's bank placement (R107), of byte ranges in the local memories, and of the writes to D: what reads back, what
is left alone, and that the canonical form is kept. -/

namespace Sys2Proof.Machine

/-! ## Banks of T (R107) -/

theorem parity8_lt (n : Nat) : parity8 n < 2 := by
  unfold parity8
  have : ∀ (l : List Nat) (p : Nat), p < 2 → l.foldl (fun p i => (p + n / 2 ^ i) % 2) p < 2 := by
    intro l; induction l with
    | nil => intro p h; exact h
    | cons i l ih => intro p _; exact ih _ (Nat.mod_lt _ (by decide))
  exact this _ 0 (by decide)

/-- The bank as its five bits. -/
theorem bankOf_eq (key : BitVec 56) (a : Nat) : ∃ p : Nat → Nat, (∀ i, p i = parity8 (a / 4096 % 256 &&& keyRow key (a / 4096 % 256) i)) ∧
    bankOf key a = (a / 128 % 2 + p 0) % 2 + 2 * ((a / 256 % 2 + p 1) % 2) + 4 * ((a / 512 % 2 + p 2) % 2)
      + 8 * ((a / 1024 % 2 + p 3) % 2) + 16 * ((a / 2048 % 2 + p 4) % 2) := by
  refine ⟨_, fun _ => rfl, ?_⟩
  simp only [bankOf, List.range, List.range.loop, List.foldl]
  omega

theorem bankOf_lt (key : BitVec 56) (a : Nat) : bankOf key a < 32 := by
  obtain ⟨p, -, h⟩ := bankOf_eq key a
  omega

/-- Five bits are determined by the number that they make. -/
theorem five_bits {b0 b1 b2 b3 b4 c0 c1 c2 c3 c4 : Nat} (hb : b0 < 2 ∧ b1 < 2 ∧ b2 < 2 ∧ b3 < 2 ∧ b4 < 2)
    (hc : c0 < 2 ∧ c1 < 2 ∧ c2 < 2 ∧ c3 < 2 ∧ c4 < 2)
    (h : b0 + 2 * b1 + 4 * b2 + 8 * b3 + 16 * b4 = c0 + 2 * c1 + 4 * c2 + 8 * c3 + 16 * c4) :
    b0 = c0 ∧ b1 = c1 ∧ b2 = c2 ∧ b3 = c3 ∧ b4 = c4 := by omega

theorem bit_cancel {x y q : Nat} (h : (x % 2 + q) % 2 = (y % 2 + q) % 2) : x % 2 = y % 2 := by omega

/-- Two addresses of T are stored at the same place only where they are equal. -/
theorem tPlace_inj (key : BitVec 56) {a b : Nat} (h : tPlace key a = tPlace key b) : a = b := by
  have ha := bankOf_lt key a
  have hb := bankOf_lt key b
  have hs : a / 4096 = b / 4096 ∧ a % 128 = b % 128 ∧ bankOf key a = bankOf key b := by
    unfold tPlace at h
    generalize bankOf key a = u at *
    generalize bankOf key b = w at *
    omega
  obtain ⟨hrow, hlow, hbank⟩ := hs
  obtain ⟨p, hp, ea⟩ := bankOf_eq key a
  obtain ⟨q, hq, eb⟩ := bankOf_eq key b
  have hpq : ∀ i, p i = q i := by intro i; rw [hp, hq, hrow]
  rw [ea, eb, hpq 0, hpq 1, hpq 2, hpq 3, hpq 4] at hbank
  have m2 : ∀ n : Nat, n % 2 < 2 := fun n => Nat.mod_lt _ (by decide)
  obtain ⟨h0, h1, h2, h3, h4⟩ := five_bits ⟨m2 _, m2 _, m2 _, m2 _, m2 _⟩ ⟨m2 _, m2 _, m2 _, m2 _, m2 _⟩ hbank
  have := bit_cancel h0
  have := bit_cancel h1
  have := bit_cancel h2
  have := bit_cancel h3
  have := bit_cancel h4
  clear ha hb hp hq ea eb hpq hbank m2 h h0 h1 h2 h3 h4
  omega

/-! ## Ranges of bytes -/

theorem Memory.wf_writeTN (key : BitVec 56) : ∀ (n : Nat) (m : Memory) (a v : Nat), m.wf = true → (m.writeTN key a n v).wf = true
  | 0, _, _, _, h => h
  | n + 1, _, _, _, h => Memory.wf_writeTN key n _ _ _ (Memory.wf_write _ _ _ h)

/-- Places outside a keyed range written read as before. -/
theorem Memory.read_writeTN_outside (key : BitVec 56) : ∀ (n : Nat) (m : Memory) (a v c : Nat),
    (∀ i, i < n → c ≠ tPlace key (a + i)) → (m.writeTN key a n v).read c = m.read c
  | 0, _, _, _, _, _ => rfl
  | n + 1, m, a, v, c, hc => by
    rw [Memory.writeTN, Memory.read_writeTN_outside key n, Memory.read_write, if_neg (by simpa using hc 0 (by omega))]
    intro i hi
    have := hc (i + 1) (by omega)
    rwa [show a + 1 + i = a + (i + 1) by omega]

/-- A byte of a range written reads as the byte of the value. -/
theorem Memory.read_writeNat_inside : ∀ (n : Nat) (m : Memory) (a v i : Nat), i < n →
    (m.writeNat a n v).read (a + i) = BitVec.ofNat 8 (v / 256 ^ i)
  | 0, _, _, _, _, h => absurd h (by omega)
  | n + 1, m, a, v, 0, _ => by
    rw [Memory.writeNat, Memory.read_writeNat_outside n _ _ _ _ (by omega), Memory.read_write]; simp
  | n + 1, m, a, v, i + 1, hi => by
    rw [Memory.writeNat, show a + (i + 1) = a + 1 + i by omega, Memory.read_writeNat_inside n _ _ _ i (by omega),
      Nat.div_div_eq_div_mul, Nat.pow_succ, Nat.mul_comm]

/-- A byte of a keyed range written reads as the byte of the value. -/
theorem Memory.read_writeTN_inside (key : BitVec 56) : ∀ (n : Nat) (m : Memory) (a v i : Nat), i < n →
    (m.writeTN key a n v).read (tPlace key (a + i)) = BitVec.ofNat 8 (v / 256 ^ i)
  | 0, _, _, _, _, h => absurd h (by omega)
  | n + 1, m, a, v, 0, _ => by
    rw [Memory.writeTN, Memory.read_writeTN_outside key n, Memory.read_write]
    · simp
    · intro i _ hi; have := tPlace_inj key hi; omega
  | n + 1, m, a, v, i + 1, hi => by
    rw [Memory.writeTN, show a + (i + 1) = a + 1 + i by omega, Memory.read_writeTN_inside key n _ _ _ i (by omega),
      Nat.div_div_eq_div_mul, Nat.pow_succ, Nat.mul_comm]

theorem byte_step (v n : Nat) : v % 256 ^ (n + 1) = v % 256 + 256 * (v / 256 % 256 ^ n) := by
  rw [Nat.pow_succ, Nat.mul_comm (256 ^ n) 256, Nat.mod_mul]

/-- A number read from bytes that all read as a value's is that value's low part. -/
theorem Memory.readNat_of_bytes : ∀ (n : Nat) (m : Memory) (a v : Nat), (∀ i, i < n → m.read (a + i) = BitVec.ofNat 8 (v / 256 ^ i)) →
    m.readNat a n = v % 256 ^ n
  | 0, _, _, _, _ => by simp [Memory.readNat, Nat.mod_one]
  | n + 1, m, a, v, h => by
    have h0 := h 0 (by omega)
    have ih := Memory.readNat_of_bytes n m (a + 1) (v / 256) (fun i hi => by
      have := h (i + 1) (by omega)
      rwa [show a + (i + 1) = a + 1 + i by omega, Nat.pow_succ, Nat.mul_comm, ← Nat.div_div_eq_div_mul] at this)
    simp only [Nat.add_zero, Nat.pow_zero, Nat.div_one] at h0
    rw [Memory.readNat, ih, h0, byte_step]; simp

/-- A number written and read back. -/
theorem Memory.readNat_writeNat (m : Memory) (a n v : Nat) : (m.writeNat a n v).readNat a n = v % 256 ^ n :=
  Memory.readNat_of_bytes n _ a v fun i hi => Memory.read_writeNat_inside n m a v i hi

theorem LocalMem.readTN_of_bytes (key : BitVec 56) : ∀ (n : Nat) (m : LocalMem) (a v : Nat),
    (∀ i, i < n → m.readT key (a + i) = BitVec.ofNat 8 (v / 256 ^ i)) → m.readTN key a n = v % 256 ^ n
  | 0, _, _, _, _ => by simp [LocalMem.readTN, Nat.mod_one]
  | n + 1, m, a, v, h => by
    have h0 := h 0 (by omega)
    have ih := LocalMem.readTN_of_bytes key n m (a + 1) (v / 256) (fun i hi => by
      have := h (i + 1) (by omega)
      rwa [show a + (i + 1) = a + 1 + i by omega, Nat.pow_succ, Nat.mul_comm, ← Nat.div_div_eq_div_mul] at this)
    simp only [Nat.add_zero, Nat.pow_zero, Nat.div_one] at h0
    rw [LocalMem.readTN, ih, h0, byte_step]; simp

/-- A number written to T and read back under the same key rows. -/
theorem LocalMem.readTN_writeTN (m : LocalMem) (key : BitVec 56) (a n v : Nat) (bad : List Nat) :
    (LocalMem.mk (m.bytes.writeTN key a n v) bad).readTN key a n = v % 256 ^ n :=
  LocalMem.readTN_of_bytes key n _ a v fun i hi => Memory.read_writeTN_inside key n m.bytes a v i hi

/-! ## D -/

/-- A write to D keeps its bytes' canonical form. -/
theorem Dram.wf_writeTok (m : Dram) (key : BitVec 512) (pa n v : Nat) (h : m.bytes.wf = true) : (m.writeTok key pa n v).bytes.wf = true := by
  unfold Dram.writeTok
  refine Memory.wf_writeNat _ _ _ _ ?_
  split
  · exact h
  · split
    · exact h
    · exact Memory.wf_writeNat _ _ _ _ h

theorem Dram.wf_writeParts (key : BitVec 512) : ∀ (parts : Nat) (m : Dram) (pa n v : Nat), m.bytes.wf = true →
    (m.writeParts key parts pa n v).bytes.wf = true
  | 0, _, _, _, _, h => h
  | parts + 1, m, pa, n, v, h => by
    unfold Dram.writeParts
    simp only
    split
    · exact h
    · exact Dram.wf_writeParts key parts _ _ _ _ (Dram.wf_writeTok m key _ _ _ h)

theorem Dram.wf_write (m : Dram) (key : BitVec 512) (pa n v : Nat) (h : m.bytes.wf = true) : (m.write key pa n v).bytes.wf = true :=
  Dram.wf_writeParts key _ _ _ _ _ h

end Sys2Proof.Machine
end

