-- ==== Sys2Proof/Laws/State.lean ====
section
/-! SUPPORT. Laws of the updates of the state: one lemma for each field that an update leaves alone or sets, all of them true by
unfolding the update, so that no proof unfolds a record update. -/

namespace Sys2Proof.Machine

/-! ## Fields of the state -/

@[simp] theorem State.setTile_dram (s : State) (t : Nat) (v : Tile) : (s.setTile t v).dram = s.dram := rfl
@[simp] theorem State.setTile_actors (s : State) (t : Nat) (v : Tile) : (s.setTile t v).actors = s.actors := rfl
@[simp] theorem State.setTile_tags (s : State) (t : Nat) (v : Tile) : (s.setTile t v).tags = s.tags := rfl
@[simp] theorem State.setTile_chases (s : State) (t : Nat) (v : Tile) : (s.setTile t v).chases = s.chases := rfl
@[simp] theorem State.setTile_rebals (s : State) (t : Nat) (v : Tile) : (s.setTile t v).rebals = s.rebals := rfl
@[simp] theorem State.setTile_galleys (s : State) (t : Nat) (v : Tile) : (s.setTile t v).galleys = s.galleys := rfl
@[simp] theorem State.setTile_plat (s : State) (t : Nat) (v : Tile) : (s.setTile t v).plat = s.plat := rfl
@[simp] theorem State.setTile_net (s : State) (t : Nat) (v : Tile) : (s.setTile t v).net = s.net := rfl
@[simp] theorem State.setTile_now (s : State) (t : Nat) (v : Tile) : (s.setTile t v).now = s.now := rfl
@[simp] theorem State.setTile_model (s : State) (t : Nat) (v : Tile) : (s.setTile t v).model = s.model := rfl
@[simp] theorem State.setTile_cur (s : State) (t : Nat) (v : Tile) : (s.setTile t v).cur = s.cur := rfl

@[simp] theorem State.modTile_dram (s : State) (t : Nat) (f : Tile → Tile) : (s.modTile t f).dram = s.dram := rfl
@[simp] theorem State.modTile_actors (s : State) (t : Nat) (f : Tile → Tile) : (s.modTile t f).actors = s.actors := rfl
@[simp] theorem State.modTile_tags (s : State) (t : Nat) (f : Tile → Tile) : (s.modTile t f).tags = s.tags := rfl
@[simp] theorem State.modTile_chases (s : State) (t : Nat) (f : Tile → Tile) : (s.modTile t f).chases = s.chases := rfl
@[simp] theorem State.modTile_rebals (s : State) (t : Nat) (f : Tile → Tile) : (s.modTile t f).rebals = s.rebals := rfl
@[simp] theorem State.modTile_galleys (s : State) (t : Nat) (f : Tile → Tile) : (s.modTile t f).galleys = s.galleys := rfl
@[simp] theorem State.modTile_plat (s : State) (t : Nat) (f : Tile → Tile) : (s.modTile t f).plat = s.plat := rfl
@[simp] theorem State.modTile_net (s : State) (t : Nat) (f : Tile → Tile) : (s.modTile t f).net = s.net := rfl
@[simp] theorem State.modTile_now (s : State) (t : Nat) (f : Tile → Tile) : (s.modTile t f).now = s.now := rfl
@[simp] theorem State.modTile_model (s : State) (t : Nat) (f : Tile → Tile) : (s.modTile t f).model = s.model := rfl
@[simp] theorem State.modTile_cur (s : State) (t : Nat) (f : Tile → Tile) : (s.modTile t f).cur = s.cur := rfl

@[simp] theorem State.modCore_dram (s : State) (t c : Nat) (f : Core → Core) : (s.modCore t c f).dram = s.dram := rfl
@[simp] theorem State.modCore_actors (s : State) (t c : Nat) (f : Core → Core) : (s.modCore t c f).actors = s.actors := rfl
@[simp] theorem State.modCore_tags (s : State) (t c : Nat) (f : Core → Core) : (s.modCore t c f).tags = s.tags := rfl
@[simp] theorem State.modCore_chases (s : State) (t c : Nat) (f : Core → Core) : (s.modCore t c f).chases = s.chases := rfl
@[simp] theorem State.modCore_rebals (s : State) (t c : Nat) (f : Core → Core) : (s.modCore t c f).rebals = s.rebals := rfl
@[simp] theorem State.modCore_galleys (s : State) (t c : Nat) (f : Core → Core) : (s.modCore t c f).galleys = s.galleys := rfl
@[simp] theorem State.modCore_plat (s : State) (t c : Nat) (f : Core → Core) : (s.modCore t c f).plat = s.plat := rfl
@[simp] theorem State.modCore_net (s : State) (t c : Nat) (f : Core → Core) : (s.modCore t c f).net = s.net := rfl
@[simp] theorem State.modCore_now (s : State) (t c : Nat) (f : Core → Core) : (s.modCore t c f).now = s.now := rfl
@[simp] theorem State.modCore_model (s : State) (t c : Nat) (f : Core → Core) : (s.modCore t c f).model = s.model := rfl
@[simp] theorem State.modCore_cur (s : State) (t c : Nat) (f : Core → Core) : (s.modCore t c f).cur = s.cur := rfl

@[simp] theorem State.modCtx_dram (s : State) (u : Cur) (f : Ctx → Ctx) : (s.modCtx u f).dram = s.dram := rfl
@[simp] theorem State.modCtx_actors (s : State) (u : Cur) (f : Ctx → Ctx) : (s.modCtx u f).actors = s.actors := rfl
@[simp] theorem State.modCtx_tags (s : State) (u : Cur) (f : Ctx → Ctx) : (s.modCtx u f).tags = s.tags := rfl
@[simp] theorem State.modCtx_chases (s : State) (u : Cur) (f : Ctx → Ctx) : (s.modCtx u f).chases = s.chases := rfl
@[simp] theorem State.modCtx_rebals (s : State) (u : Cur) (f : Ctx → Ctx) : (s.modCtx u f).rebals = s.rebals := rfl
@[simp] theorem State.modCtx_galleys (s : State) (u : Cur) (f : Ctx → Ctx) : (s.modCtx u f).galleys = s.galleys := rfl
@[simp] theorem State.modCtx_plat (s : State) (u : Cur) (f : Ctx → Ctx) : (s.modCtx u f).plat = s.plat := rfl
@[simp] theorem State.modCtx_net (s : State) (u : Cur) (f : Ctx → Ctx) : (s.modCtx u f).net = s.net := rfl
@[simp] theorem State.modCtx_now (s : State) (u : Cur) (f : Ctx → Ctx) : (s.modCtx u f).now = s.now := rfl
@[simp] theorem State.modCtx_model (s : State) (u : Cur) (f : Ctx → Ctx) : (s.modCtx u f).model = s.model := rfl
@[simp] theorem State.modCtx_cur (s : State) (u : Cur) (f : Ctx → Ctx) : (s.modCtx u f).cur = s.cur := rfl

@[simp] theorem State.modEng_dram (s : State) (t : Nat) (f : TileEngines → TileEngines) : (s.modEng t f).dram = s.dram := rfl
@[simp] theorem State.modEng_actors (s : State) (t : Nat) (f : TileEngines → TileEngines) : (s.modEng t f).actors = s.actors := rfl
@[simp] theorem State.modEng_tags (s : State) (t : Nat) (f : TileEngines → TileEngines) : (s.modEng t f).tags = s.tags := rfl
@[simp] theorem State.modEng_chases (s : State) (t : Nat) (f : TileEngines → TileEngines) : (s.modEng t f).chases = s.chases := rfl
@[simp] theorem State.modEng_rebals (s : State) (t : Nat) (f : TileEngines → TileEngines) : (s.modEng t f).rebals = s.rebals := rfl
@[simp] theorem State.modEng_galleys (s : State) (t : Nat) (f : TileEngines → TileEngines) : (s.modEng t f).galleys = s.galleys := rfl
@[simp] theorem State.modEng_plat (s : State) (t : Nat) (f : TileEngines → TileEngines) : (s.modEng t f).plat = s.plat := rfl
@[simp] theorem State.modEng_net (s : State) (t : Nat) (f : TileEngines → TileEngines) : (s.modEng t f).net = s.net := rfl
@[simp] theorem State.modEng_now (s : State) (t : Nat) (f : TileEngines → TileEngines) : (s.modEng t f).now = s.now := rfl
@[simp] theorem State.modEng_model (s : State) (t : Nat) (f : TileEngines → TileEngines) : (s.modEng t f).model = s.model := rfl
@[simp] theorem State.modEng_cur (s : State) (t : Nat) (f : TileEngines → TileEngines) : (s.modEng t f).cur = s.cur := rfl

@[simp] theorem State.modPort_dram (s : State) (t : Nat) (f : PortEngine → PortEngine) : (s.modPort t f).dram = s.dram := rfl
@[simp] theorem State.modPort_actors (s : State) (t : Nat) (f : PortEngine → PortEngine) : (s.modPort t f).actors = s.actors := rfl
@[simp] theorem State.modPort_tags (s : State) (t : Nat) (f : PortEngine → PortEngine) : (s.modPort t f).tags = s.tags := rfl
@[simp] theorem State.modPort_chases (s : State) (t : Nat) (f : PortEngine → PortEngine) : (s.modPort t f).chases = s.chases := rfl
@[simp] theorem State.modPort_rebals (s : State) (t : Nat) (f : PortEngine → PortEngine) : (s.modPort t f).rebals = s.rebals := rfl
@[simp] theorem State.modPort_galleys (s : State) (t : Nat) (f : PortEngine → PortEngine) : (s.modPort t f).galleys = s.galleys := rfl
@[simp] theorem State.modPort_plat (s : State) (t : Nat) (f : PortEngine → PortEngine) : (s.modPort t f).plat = s.plat := rfl
@[simp] theorem State.modPort_net (s : State) (t : Nat) (f : PortEngine → PortEngine) : (s.modPort t f).net = s.net := rfl
@[simp] theorem State.modPort_now (s : State) (t : Nat) (f : PortEngine → PortEngine) : (s.modPort t f).now = s.now := rfl
@[simp] theorem State.modPort_model (s : State) (t : Nat) (f : PortEngine → PortEngine) : (s.modPort t f).model = s.model := rfl
@[simp] theorem State.modPort_cur (s : State) (t : Nat) (f : PortEngine → PortEngine) : (s.modPort t f).cur = s.cur := rfl

@[simp] theorem State.setCur_dram (s : State) (u : Cur) : (s.setCur u).dram = s.dram := rfl
@[simp] theorem State.setCur_actors (s : State) (u : Cur) : (s.setCur u).actors = s.actors := rfl
@[simp] theorem State.setCur_tags (s : State) (u : Cur) : (s.setCur u).tags = s.tags := rfl
@[simp] theorem State.setCur_chases (s : State) (u : Cur) : (s.setCur u).chases = s.chases := rfl
@[simp] theorem State.setCur_rebals (s : State) (u : Cur) : (s.setCur u).rebals = s.rebals := rfl
@[simp] theorem State.setCur_galleys (s : State) (u : Cur) : (s.setCur u).galleys = s.galleys := rfl
@[simp] theorem State.setCur_plat (s : State) (u : Cur) : (s.setCur u).plat = s.plat := rfl
@[simp] theorem State.setCur_net (s : State) (u : Cur) : (s.setCur u).net = s.net := rfl
@[simp] theorem State.setCur_now (s : State) (u : Cur) : (s.setCur u).now = s.now := rfl
@[simp] theorem State.setCur_tiles (s : State) (u : Cur) : (s.setCur u).tiles = s.tiles := rfl
@[simp] theorem State.setCur_tile (s : State) (u : Cur) (y : Nat) : (s.setCur u).tile y = s.tile y := rfl
@[simp] theorem State.setCur_core (s : State) (u : Cur) (y d : Nat) : (s.setCur u).core y d = s.core y d := rfl
@[simp] theorem State.setCur_ctx (s : State) (u : Cur) (v : Cur) : (s.setCur u).ctx v = s.ctx v := rfl

@[simp] theorem State.post_dram (s : State) (m : Msg) : (s.post m).dram = s.dram := rfl
@[simp] theorem State.post_actors (s : State) (m : Msg) : (s.post m).actors = s.actors := rfl
@[simp] theorem State.post_tags (s : State) (m : Msg) : (s.post m).tags = s.tags := rfl
@[simp] theorem State.post_chases (s : State) (m : Msg) : (s.post m).chases = s.chases := rfl
@[simp] theorem State.post_rebals (s : State) (m : Msg) : (s.post m).rebals = s.rebals := rfl
@[simp] theorem State.post_galleys (s : State) (m : Msg) : (s.post m).galleys = s.galleys := rfl
@[simp] theorem State.post_plat (s : State) (m : Msg) : (s.post m).plat = s.plat := rfl
@[simp] theorem State.post_now (s : State) (m : Msg) : (s.post m).now = s.now := rfl
@[simp] theorem State.post_model (s : State) (m : Msg) : (s.post m).model = s.model := rfl
@[simp] theorem State.post_tiles (s : State) (m : Msg) : (s.post m).tiles = s.tiles := rfl
@[simp] theorem State.post_tile (s : State) (m : Msg) (y : Nat) : (s.post m).tile y = s.tile y := rfl
@[simp] theorem State.post_core (s : State) (m : Msg) (y d : Nat) : (s.post m).core y d = s.core y d := rfl
@[simp] theorem State.post_ctx (s : State) (m : Msg) (v : Cur) : (s.post m).ctx v = s.ctx v := rfl
@[simp] theorem State.post_cur (s : State) (m : Msg) : (s.post m).cur = s.cur := rfl

@[simp] theorem State.drawTicket_dram (s : State)  : (s.drawTicket ).dram = s.dram := rfl
@[simp] theorem State.drawTicket_actors (s : State)  : (s.drawTicket ).actors = s.actors := rfl
@[simp] theorem State.drawTicket_tags (s : State)  : (s.drawTicket ).tags = s.tags := rfl
@[simp] theorem State.drawTicket_chases (s : State)  : (s.drawTicket ).chases = s.chases := rfl
@[simp] theorem State.drawTicket_rebals (s : State)  : (s.drawTicket ).rebals = s.rebals := rfl
@[simp] theorem State.drawTicket_galleys (s : State)  : (s.drawTicket ).galleys = s.galleys := rfl
@[simp] theorem State.drawTicket_plat (s : State)  : (s.drawTicket ).plat = s.plat := rfl
@[simp] theorem State.drawTicket_net (s : State)  : (s.drawTicket ).net = s.net := rfl
@[simp] theorem State.drawTicket_now (s : State)  : (s.drawTicket ).now = s.now := rfl
@[simp] theorem State.drawTicket_tiles (s : State)  : (s.drawTicket ).tiles = s.tiles := rfl
@[simp] theorem State.drawTicket_tile (s : State)  (y : Nat) : (s.drawTicket ).tile y = s.tile y := rfl
@[simp] theorem State.drawTicket_core (s : State)  (y d : Nat) : (s.drawTicket ).core y d = s.core y d := rfl
@[simp] theorem State.drawTicket_ctx (s : State)  (v : Cur) : (s.drawTicket ).ctx v = s.ctx v := rfl
@[simp] theorem State.drawTicket_cur (s : State)  : (s.drawTicket ).cur = s.cur := rfl

@[simp] theorem State.draw_dram (s : State) (n : Nat) : (s.draw n).dram = s.dram := rfl
@[simp] theorem State.draw_actors (s : State) (n : Nat) : (s.draw n).actors = s.actors := rfl
@[simp] theorem State.draw_tags (s : State) (n : Nat) : (s.draw n).tags = s.tags := rfl
@[simp] theorem State.draw_chases (s : State) (n : Nat) : (s.draw n).chases = s.chases := rfl
@[simp] theorem State.draw_rebals (s : State) (n : Nat) : (s.draw n).rebals = s.rebals := rfl
@[simp] theorem State.draw_galleys (s : State) (n : Nat) : (s.draw n).galleys = s.galleys := rfl
@[simp] theorem State.draw_plat (s : State) (n : Nat) : (s.draw n).plat = s.plat := rfl
@[simp] theorem State.draw_net (s : State) (n : Nat) : (s.draw n).net = s.net := rfl
@[simp] theorem State.draw_now (s : State) (n : Nat) : (s.draw n).now = s.now := rfl
@[simp] theorem State.draw_tiles (s : State) (n : Nat) : (s.draw n).tiles = s.tiles := rfl
@[simp] theorem State.draw_tile (s : State) (n : Nat) (y : Nat) : (s.draw n).tile y = s.tile y := rfl
@[simp] theorem State.draw_core (s : State) (n : Nat) (y d : Nat) : (s.draw n).core y d = s.core y d := rfl
@[simp] theorem State.draw_ctx (s : State) (n : Nat) (v : Cur) : (s.draw n).ctx v = s.ctx v := rfl
@[simp] theorem State.draw_cur (s : State) (n : Nat) : (s.draw n).cur = s.cur := rfl

@[simp] theorem State.setCur_cur (s : State) (u : Cur) : (s.setCur u).cur = u := rfl
@[simp] theorem State.setCur_self (s : State) : s.setCur s.cur = s := rfl
@[simp] theorem State.post_net (s : State) (m : Msg) : (s.post m).net = s.net ++ [m] := rfl
@[simp] theorem State.drawTicket_ticket (s : State) : s.drawTicket.ticket = s.ticket + 1 := rfl
@[simp] theorem State.draw_fresh (s : State) (n : Nat) : (s.draw n).model.fresh = s.model.fresh + n := rfl

/-! ## Tiles, cores and contexts -/

@[simp] theorem State.tile_setTile (s : State) (t : Nat) (v : Tile) (y : Nat) : (s.setTile t v).tile y = if y = t then v else s.tile y := by
  simp only [State.tile, State.setTile, Sparse.get_put]

theorem State.tile_modTile (s : State) (t : Nat) (f : Tile → Tile) (y : Nat) :
    (s.modTile t f).tile y = if y = t then f (s.tile t) else s.tile y := State.tile_setTile s t _ y

/-- A part of a tile that a change of the tile leaves alone. -/
theorem State.tile_modTile_part {α : Type} (p : Tile → α) (s : State) (t : Nat) (f : Tile → Tile) (h : ∀ y, p (f y) = p y) (y : Nat) :
    p ((s.modTile t f).tile y) = p (s.tile y) := by
  rw [State.tile_modTile]; split
  · subst y; exact h _
  · rfl

@[simp] theorem Tile.core_setCore (y : Tile) (c : Nat) (v : Core) (d : Nat) : (y.setCore c v).core d = if d = c then v else y.core d := by
  simp only [Tile.core, Tile.setCore, Sparse.get_put]

@[simp] theorem Core.ctx_setCtx (k : Core) (x : Nat) (v : Ctx) (y : Nat) : (k.setCtx x v).ctx y = if y = x then v else k.ctx y := by
  simp only [Core.ctx, Core.setCtx, Sparse.get_put]

@[simp] theorem State.core_modCore (s : State) (t c : Nat) (f : Core → Core) (y d : Nat) :
    (s.modCore t c f).core y d = if y = t ∧ d = c then f (s.core t c) else s.core y d := by
  simp only [State.core, State.modCore, State.tile_modTile]
  by_cases h : y = t
  · subst h; by_cases g : d = c
    · subst g; simp
    · simp [g]
  · simp [h]

theorem State.core_modCtx (s : State) (u : Cur) (f : Ctx → Ctx) (y d : Nat) :
    (s.modCtx u f).core y d = if y = u.tile ∧ d = u.core then (s.core y d).setCtx u.ctx (f (s.ctx u)) else s.core y d := by
  simp only [State.modCtx, State.core_modCore]
  split
  · rename_i h; obtain ⟨rfl, rfl⟩ := h; rfl
  · rfl

theorem Cur.ext_iff' (u v : Cur) : u = v ↔ u.tile = v.tile ∧ u.core = v.core ∧ u.ctx = v.ctx := by
  cases u; cases v; simp

@[simp] theorem State.ctx_modCtx (s : State) (u : Cur) (f : Ctx → Ctx) (v : Cur) :
    (s.modCtx u f).ctx v = if v = u then f (s.ctx u) else s.ctx v := by
  simp only [State.ctx, State.core_modCtx]
  by_cases h : v.tile = u.tile ∧ v.core = u.core
  · simp only [h, and_self, if_true, Core.ctx_setCtx, Cur.ext_iff', true_and]
  · rw [if_neg h, if_neg (by rintro rfl; exact h ⟨rfl, rfl⟩)]

/-- A change of a core that leaves its contexts alone. -/
theorem State.ctx_modCore (s : State) (t c : Nat) (f : Core → Core) (h : ∀ k, (f k).ctxs = k.ctxs) (v : Cur) :
    (s.modCore t c f).ctx v = s.ctx v := by
  simp only [State.ctx, State.core_modCore]
  split
  · rename_i g; obtain ⟨h1, h2⟩ := g; simp only [Core.ctx, h, h1, h2]
  · rfl

/-- A part of a core that a change of the core leaves alone. -/
theorem State.core_modCore_part {α : Type} (p : Core → α) (s : State) (t c : Nat) (f : Core → Core) (h : ∀ k, p (f k) = p k) (y d : Nat) :
    p ((s.modCore t c f).core y d) = p (s.core y d) := by
  rw [State.core_modCore]; split
  · rename_i g; obtain ⟨rfl, rfl⟩ := g; exact h _
  · rfl

/-! ## Parts of a tile that an update leaves alone -/

@[simp] theorem State.tile_modCore_place (s : State) (t c : Nat) (f : Core → Core) (y : Nat) :
    ((s.modCore t c f).tile y).place = (s.tile y).place := State.tile_modTile_part (·.place) s t _ (by intro _; rfl) y
@[simp] theorem State.tile_modCore_t (s : State) (t c : Nat) (f : Core → Core) (y : Nat) :
    ((s.modCore t c f).tile y).t = (s.tile y).t := State.tile_modTile_part (·.t) s t _ (by intro _; rfl) y
@[simp] theorem State.tile_modCore_x (s : State) (t c : Nat) (f : Core → Core) (y : Nat) :
    ((s.modCore t c f).tile y).x = (s.tile y).x := State.tile_modTile_part (·.x) s t _ (by intro _; rfl) y
@[simp] theorem State.tile_modCore_xbad (s : State) (t c : Nat) (f : Core → Core) (y : Nat) :
    ((s.modCore t c f).tile y).xbad = (s.tile y).xbad := State.tile_modTile_part (·.xbad) s t _ (by intro _; rfl) y
@[simp] theorem State.tile_modCore_eng (s : State) (t c : Nat) (f : Core → Core) (y : Nat) :
    ((s.modCore t c f).tile y).eng = (s.tile y).eng := State.tile_modTile_part (·.eng) s t _ (by intro _; rfl) y
@[simp] theorem State.tile_modCore_port (s : State) (t c : Nat) (f : Core → Core) (y : Nat) :
    ((s.modCore t c f).tile y).port = (s.tile y).port := State.tile_modTile_part (·.port) s t _ (by intro _; rfl) y
@[simp] theorem State.tile_modCore_clk (s : State) (t c : Nat) (f : Core → Core) (y : Nat) :
    ((s.modCore t c f).tile y).clk = (s.tile y).clk := State.tile_modTile_part (·.clk) s t _ (by intro _; rfl) y
@[simp] theorem State.tile_modCore_gauge (s : State) (t c : Nat) (f : Core → Core) (y : Nat) :
    ((s.modCore t c f).tile y).gauge = (s.tile y).gauge := State.tile_modTile_part (·.gauge) s t _ (by intro _; rfl) y
@[simp] theorem State.tile_modCtx_place (s : State) (u : Cur) (f : Ctx → Ctx) (y : Nat) :
    ((s.modCtx u f).tile y).place = (s.tile y).place := State.tile_modCore_place s _ _ _ y
@[simp] theorem State.tile_modCtx_t (s : State) (u : Cur) (f : Ctx → Ctx) (y : Nat) :
    ((s.modCtx u f).tile y).t = (s.tile y).t := State.tile_modCore_t s _ _ _ y
@[simp] theorem State.tile_modCtx_x (s : State) (u : Cur) (f : Ctx → Ctx) (y : Nat) :
    ((s.modCtx u f).tile y).x = (s.tile y).x := State.tile_modCore_x s _ _ _ y
@[simp] theorem State.tile_modCtx_xbad (s : State) (u : Cur) (f : Ctx → Ctx) (y : Nat) :
    ((s.modCtx u f).tile y).xbad = (s.tile y).xbad := State.tile_modCore_xbad s _ _ _ y
@[simp] theorem State.tile_modCtx_eng (s : State) (u : Cur) (f : Ctx → Ctx) (y : Nat) :
    ((s.modCtx u f).tile y).eng = (s.tile y).eng := State.tile_modCore_eng s _ _ _ y
@[simp] theorem State.tile_modCtx_port (s : State) (u : Cur) (f : Ctx → Ctx) (y : Nat) :
    ((s.modCtx u f).tile y).port = (s.tile y).port := State.tile_modCore_port s _ _ _ y
@[simp] theorem State.tile_modCtx_clk (s : State) (u : Cur) (f : Ctx → Ctx) (y : Nat) :
    ((s.modCtx u f).tile y).clk = (s.tile y).clk := State.tile_modCore_clk s _ _ _ y
@[simp] theorem State.tile_modCtx_gauge (s : State) (u : Cur) (f : Ctx → Ctx) (y : Nat) :
    ((s.modCtx u f).tile y).gauge = (s.tile y).gauge := State.tile_modCore_gauge s _ _ _ y
@[simp] theorem State.tile_modEng_place (s : State) (t : Nat) (f : TileEngines → TileEngines) (y : Nat) :
    ((s.modEng t f).tile y).place = (s.tile y).place := State.tile_modTile_part (·.place) s t _ (by intro _; rfl) y
@[simp] theorem State.tile_modEng_t (s : State) (t : Nat) (f : TileEngines → TileEngines) (y : Nat) :
    ((s.modEng t f).tile y).t = (s.tile y).t := State.tile_modTile_part (·.t) s t _ (by intro _; rfl) y
@[simp] theorem State.tile_modEng_x (s : State) (t : Nat) (f : TileEngines → TileEngines) (y : Nat) :
    ((s.modEng t f).tile y).x = (s.tile y).x := State.tile_modTile_part (·.x) s t _ (by intro _; rfl) y
@[simp] theorem State.tile_modEng_xbad (s : State) (t : Nat) (f : TileEngines → TileEngines) (y : Nat) :
    ((s.modEng t f).tile y).xbad = (s.tile y).xbad := State.tile_modTile_part (·.xbad) s t _ (by intro _; rfl) y
@[simp] theorem State.tile_modEng_cores (s : State) (t : Nat) (f : TileEngines → TileEngines) (y : Nat) :
    ((s.modEng t f).tile y).cores = (s.tile y).cores := State.tile_modTile_part (·.cores) s t _ (by intro _; rfl) y
@[simp] theorem State.tile_modEng_port (s : State) (t : Nat) (f : TileEngines → TileEngines) (y : Nat) :
    ((s.modEng t f).tile y).port = (s.tile y).port := State.tile_modTile_part (·.port) s t _ (by intro _; rfl) y
@[simp] theorem State.tile_modEng_clk (s : State) (t : Nat) (f : TileEngines → TileEngines) (y : Nat) :
    ((s.modEng t f).tile y).clk = (s.tile y).clk := State.tile_modTile_part (·.clk) s t _ (by intro _; rfl) y
@[simp] theorem State.tile_modEng_gauge (s : State) (t : Nat) (f : TileEngines → TileEngines) (y : Nat) :
    ((s.modEng t f).tile y).gauge = (s.tile y).gauge := State.tile_modTile_part (·.gauge) s t _ (by intro _; rfl) y
@[simp] theorem State.core_modEng (s : State) (t : Nat) (f : TileEngines → TileEngines) (y d : Nat) : (s.modEng t f).core y d = s.core y d := by
  unfold State.core Tile.core; rw [State.tile_modEng_cores]
@[simp] theorem State.ctx_modEng (s : State) (t : Nat) (f : TileEngines → TileEngines) (v : Cur) : (s.modEng t f).ctx v = s.ctx v := by
  unfold State.ctx; rw [State.core_modEng]
@[simp] theorem State.tile_modPort_place (s : State) (t : Nat) (f : PortEngine → PortEngine) (y : Nat) :
    ((s.modPort t f).tile y).place = (s.tile y).place := State.tile_modTile_part (·.place) s t _ (by intro _; rfl) y
@[simp] theorem State.tile_modPort_t (s : State) (t : Nat) (f : PortEngine → PortEngine) (y : Nat) :
    ((s.modPort t f).tile y).t = (s.tile y).t := State.tile_modTile_part (·.t) s t _ (by intro _; rfl) y
@[simp] theorem State.tile_modPort_x (s : State) (t : Nat) (f : PortEngine → PortEngine) (y : Nat) :
    ((s.modPort t f).tile y).x = (s.tile y).x := State.tile_modTile_part (·.x) s t _ (by intro _; rfl) y
@[simp] theorem State.tile_modPort_xbad (s : State) (t : Nat) (f : PortEngine → PortEngine) (y : Nat) :
    ((s.modPort t f).tile y).xbad = (s.tile y).xbad := State.tile_modTile_part (·.xbad) s t _ (by intro _; rfl) y
@[simp] theorem State.tile_modPort_cores (s : State) (t : Nat) (f : PortEngine → PortEngine) (y : Nat) :
    ((s.modPort t f).tile y).cores = (s.tile y).cores := State.tile_modTile_part (·.cores) s t _ (by intro _; rfl) y
@[simp] theorem State.tile_modPort_eng (s : State) (t : Nat) (f : PortEngine → PortEngine) (y : Nat) :
    ((s.modPort t f).tile y).eng = (s.tile y).eng := State.tile_modTile_part (·.eng) s t _ (by intro _; rfl) y
@[simp] theorem State.tile_modPort_clk (s : State) (t : Nat) (f : PortEngine → PortEngine) (y : Nat) :
    ((s.modPort t f).tile y).clk = (s.tile y).clk := State.tile_modTile_part (·.clk) s t _ (by intro _; rfl) y
@[simp] theorem State.tile_modPort_gauge (s : State) (t : Nat) (f : PortEngine → PortEngine) (y : Nat) :
    ((s.modPort t f).tile y).gauge = (s.tile y).gauge := State.tile_modTile_part (·.gauge) s t _ (by intro _; rfl) y
@[simp] theorem State.core_modPort (s : State) (t : Nat) (f : PortEngine → PortEngine) (y d : Nat) : (s.modPort t f).core y d = s.core y d := by
  unfold State.core Tile.core; rw [State.tile_modPort_cores]
@[simp] theorem State.ctx_modPort (s : State) (t : Nat) (f : PortEngine → PortEngine) (v : Cur) : (s.modPort t f).ctx v = s.ctx v := by
  unfold State.ctx; rw [State.core_modPort]
@[simp] theorem State.eng_modEng (s : State) (t : Nat) (f : TileEngines → TileEngines) (y : Nat) :
    ((s.modEng t f).tile y).eng = if y = t then f (s.tile t).eng else (s.tile y).eng := by
  simp only [State.modEng, State.tile_modTile]; split <;> rfl
@[simp] theorem State.port_modPort (s : State) (t : Nat) (f : PortEngine → PortEngine) (y : Nat) :
    ((s.modPort t f).tile y).port = if y = t then f (s.tile t).port else (s.tile y).port := by
  simp only [State.modPort, State.tile_modTile]; split <;> rfl

/-! ## Parts of a core that a change of one of its contexts leaves alone -/

@[simp] theorem State.core_modCtx_issue (s : State) (u : Cur) (f : Ctx → Ctx) (y d : Nat) :
    ((s.modCtx u f).core y d).issue = (s.core y d).issue := State.core_modCore_part (·.issue) s _ _ _ (by intro _; rfl) y d
@[simp] theorem State.core_modCtx_evq (s : State) (u : Cur) (f : Ctx → Ctx) (y d : Nat) :
    ((s.modCtx u f).core y d).evq = (s.core y d).evq := State.core_modCore_part (·.evq) s _ _ _ (by intro _; rfl) y d
@[simp] theorem State.core_modCtx_tvec (s : State) (u : Cur) (f : Ctx → Ctx) (y d : Nat) :
    ((s.modCtx u f).core y d).tvec = (s.core y d).tvec := State.core_modCore_part (·.tvec) s _ _ _ (by intro _; rfl) y d
@[simp] theorem State.core_modCtx_ktimer (s : State) (u : Cur) (f : Ctx → Ctx) (y d : Nat) :
    ((s.modCtx u f).core y d).ktimer = (s.core y d).ktimer := State.core_modCore_part (·.ktimer) s _ _ _ (by intro _; rfl) y d
@[simp] theorem State.core_modCtx_npend (s : State) (u : Cur) (f : Ctx → Ctx) (y d : Nat) :
    ((s.modCtx u f).core y d).npend = (s.core y d).npend := State.core_modCore_part (·.npend) s _ _ _ (by intro _; rfl) y d
@[simp] theorem State.core_modCtx_ninfo (s : State) (u : Cur) (f : Ctx → Ctx) (y d : Nat) :
    ((s.modCtx u f).core y d).ninfo = (s.core y d).ninfo := State.core_modCore_part (·.ninfo) s _ _ _ (by intro _; rfl) y d
@[simp] theorem State.core_modCtx_wdesc (s : State) (u : Cur) (f : Ctx → Ctx) (y d : Nat) :
    ((s.modCtx u f).core y d).wdesc = (s.core y d).wdesc := State.core_modCore_part (·.wdesc) s _ _ _ (by intro _; rfl) y d
@[simp] theorem State.core_modCtx_cyc (s : State) (u : Cur) (f : Ctx → Ctx) (y d : Nat) :
    ((s.modCtx u f).core y d).cyc = (s.core y d).cyc := State.core_modCore_part (·.cyc) s _ _ _ (by intro _; rfl) y d
@[simp] theorem State.core_modCtx_freqReq (s : State) (u : Cur) (f : Ctx → Ctx) (y d : Nat) :
    ((s.modCtx u f).core y d).freqReq = (s.core y d).freqReq := State.core_modCore_part (·.freqReq) s _ _ _ (by intro _; rfl) y d
@[simp] theorem State.core_modCtx_a (s : State) (u : Cur) (f : Ctx → Ctx) (y d : Nat) :
    ((s.modCtx u f).core y d).a = (s.core y d).a := State.core_modCore_part (·.a) s _ _ _ (by intro _; rfl) y d
@[simp] theorem State.core_modCtx_c (s : State) (u : Cur) (f : Ctx → Ctx) (y d : Nat) :
    ((s.modCtx u f).core y d).c = (s.core y d).c := State.core_modCore_part (·.c) s _ _ _ (by intro _; rfl) y d
@[simp] theorem State.core_modCtx_w (s : State) (u : Cur) (f : Ctx → Ctx) (y d : Nat) :
    ((s.modCtx u f).core y d).w = (s.core y d).w := State.core_modCore_part (·.w) s _ _ _ (by intro _; rfl) y d
@[simp] theorem State.core_modCtx_streams (s : State) (u : Cur) (f : Ctx → Ctx) (y d : Nat) :
    ((s.modCtx u f).core y d).streams = (s.core y d).streams := State.core_modCore_part (·.streams) s _ _ _ (by intro _; rfl) y d
@[simp] theorem State.core_modCtx_walker (s : State) (u : Cur) (f : Ctx → Ctx) (y d : Nat) :
    ((s.modCtx u f).core y d).walker = (s.core y d).walker := State.core_modCore_part (·.walker) s _ _ _ (by intro _; rfl) y d
@[simp] theorem State.core_modCtx_spa (s : State) (u : Cur) (f : Ctx → Ctx) (y d : Nat) :
    ((s.modCtx u f).core y d).spa = (s.core y d).spa := State.core_modCore_part (·.spa) s _ _ _ (by intro _; rfl) y d
@[simp] theorem State.core_modCtx_mq (s : State) (u : Cur) (f : Ctx → Ctx) (y d : Nat) :
    ((s.modCtx u f).core y d).mq = (s.core y d).mq := State.core_modCore_part (·.mq) s _ _ _ (by intro _; rfl) y d

/-! ## Registers (R130) -/

@[simp] theorem Ctx.g_zero (k : Ctx) : k.g 0 = 0 := rfl
@[simp] theorem Ctx.setG_zero (k : Ctx) (v : Word) : k.setG 0 v = k := rfl

@[simp] theorem Ctx.setG_status (k : Ctx) (n : Nat) (v : Word) : (k.setG n v).status = k.status := by unfold Ctx.setG; split <;> rfl
@[simp] theorem Ctx.setG_handler (k : Ctx) (n : Nat) (v : Word) : (k.setG n v).handler = k.handler := by unfold Ctx.setG; split <;> rfl
@[simp] theorem Ctx.setG_trap (k : Ctx) (n : Nat) (v : Word) : (k.setG n v).trap = k.trap := by unfold Ctx.setG; split <;> rfl
@[simp] theorem Ctx.setG_sys (k : Ctx) (n : Nat) (v : Word) : (k.setG n v).sys = k.sys := by unfold Ctx.setG; split <;> rfl
@[simp] theorem Ctx.setG_pc (k : Ctx) (n : Nat) (v : Word) : (k.setG n v).pc = k.pc := by unfold Ctx.setG; split <;> rfl
@[simp] theorem Ctx.setG_pcFrom (k : Ctx) (n : Nat) (v : Word) : (k.setG n v).pcFrom = k.pcFrom := by unfold Ctx.setG; split <;> rfl
@[simp] theorem Ctx.setG_loops (k : Ctx) (n : Nat) (v : Word) : (k.setG n v).loops = k.loops := by unfold Ctx.setG; split <;> rfl
@[simp] theorem Ctx.setG_flights (k : Ctx) (n : Nat) (v : Word) : (k.setG n v).flights = k.flights := by unfold Ctx.setG; split <;> rfl
@[simp] theorem Ctx.setG_words (k : Ctx) (n : Nat) (v : Word) : (k.setG n v).words = k.words := by unfold Ctx.setG; split <;> rfl
@[simp] theorem Ctx.setG_waited (k : Ctx) (n : Nat) (v : Word) : (k.setG n v).waited = k.waited := by unfold Ctx.setG; split <;> rfl
@[simp] theorem Ctx.setG_since (k : Ctx) (n : Nat) (v : Word) : (k.setG n v).since = k.since := by unfold Ctx.setG; split <;> rfl
@[simp] theorem Ctx.setG_granted (k : Ctx) (n : Nat) (v : Word) : (k.setG n v).granted = k.granted := by unfold Ctx.setG; split <;> rfl
@[simp] theorem Ctx.setG_stalled (k : Ctx) (n : Nat) (v : Word) : (k.setG n v).stalled = k.stalled := by unfold Ctx.setG; split <;> rfl
@[simp] theorem Ctx.setG_behind (k : Ctx) (n : Nat) (v : Word) : (k.setG n v).behind = k.behind := by unfold Ctx.setG; split <;> rfl
@[simp] theorem Ctx.setG_ahead (k : Ctx) (n : Nat) (v : Word) : (k.setG n v).ahead = k.ahead := by unfold Ctx.setG; split <;> rfl
@[simp] theorem Ctx.setG_started (k : Ctx) (n : Nat) (v : Word) : (k.setG n v).started = k.started := by unfold Ctx.setG; split <;> rfl
@[simp] theorem Ctx.setG_pend (k : Ctx) (n : Nat) (v : Word) : (k.setG n v).pend = k.pend := by unfold Ctx.setG; split <;> rfl
@[simp] theorem Ctx.setG_kept (k : Ctx) (n : Nat) (v : Word) : (k.setG n v).kept = k.kept := by unfold Ctx.setG; split <;> rfl
@[simp] theorem Ctx.setG_budget0 (k : Ctx) (n : Nat) (v : Word) : (k.setG n v).budget0 = k.budget0 := by unfold Ctx.setG; split <;> rfl
@[simp] theorem Ctx.setG_bcycles (k : Ctx) (n : Nat) (v : Word) : (k.setG n v).bcycles = k.bcycles := by unfold Ctx.setG; split <;> rfl
@[simp] theorem Ctx.setG_acks (k : Ctx) (n : Nat) (v : Word) : (k.setG n v).acks = k.acks := by unfold Ctx.setG; split <;> rfl
@[simp] theorem Ctx.setG_sender (k : Ctx) (n : Nat) (v : Word) : (k.setG n v).sender = k.sender := by unfold Ctx.setG; split <;> rfl
@[simp] theorem Ctx.setV_status (k : Ctx) (n : Nat) (v : VWord) : (k.setV n v).status = k.status := rfl
@[simp] theorem Ctx.setV_handler (k : Ctx) (n : Nat) (v : VWord) : (k.setV n v).handler = k.handler := rfl
@[simp] theorem Ctx.setV_trap (k : Ctx) (n : Nat) (v : VWord) : (k.setV n v).trap = k.trap := rfl
@[simp] theorem Ctx.setV_sys (k : Ctx) (n : Nat) (v : VWord) : (k.setV n v).sys = k.sys := rfl
@[simp] theorem Ctx.setV_pc (k : Ctx) (n : Nat) (v : VWord) : (k.setV n v).pc = k.pc := rfl
@[simp] theorem Ctx.setV_pcFrom (k : Ctx) (n : Nat) (v : VWord) : (k.setV n v).pcFrom = k.pcFrom := rfl
@[simp] theorem Ctx.setV_loops (k : Ctx) (n : Nat) (v : VWord) : (k.setV n v).loops = k.loops := rfl
@[simp] theorem Ctx.setV_flights (k : Ctx) (n : Nat) (v : VWord) : (k.setV n v).flights = k.flights := rfl
@[simp] theorem Ctx.setV_words (k : Ctx) (n : Nat) (v : VWord) : (k.setV n v).words = k.words := rfl
@[simp] theorem Ctx.setV_waited (k : Ctx) (n : Nat) (v : VWord) : (k.setV n v).waited = k.waited := rfl
@[simp] theorem Ctx.setV_since (k : Ctx) (n : Nat) (v : VWord) : (k.setV n v).since = k.since := rfl
@[simp] theorem Ctx.setV_granted (k : Ctx) (n : Nat) (v : VWord) : (k.setV n v).granted = k.granted := rfl
@[simp] theorem Ctx.setV_stalled (k : Ctx) (n : Nat) (v : VWord) : (k.setV n v).stalled = k.stalled := rfl
@[simp] theorem Ctx.setV_behind (k : Ctx) (n : Nat) (v : VWord) : (k.setV n v).behind = k.behind := rfl
@[simp] theorem Ctx.setV_ahead (k : Ctx) (n : Nat) (v : VWord) : (k.setV n v).ahead = k.ahead := rfl
@[simp] theorem Ctx.setV_started (k : Ctx) (n : Nat) (v : VWord) : (k.setV n v).started = k.started := rfl
@[simp] theorem Ctx.setV_pend (k : Ctx) (n : Nat) (v : VWord) : (k.setV n v).pend = k.pend := rfl
@[simp] theorem Ctx.setV_kept (k : Ctx) (n : Nat) (v : VWord) : (k.setV n v).kept = k.kept := rfl
@[simp] theorem Ctx.setV_budget0 (k : Ctx) (n : Nat) (v : VWord) : (k.setV n v).budget0 = k.budget0 := rfl
@[simp] theorem Ctx.setV_bcycles (k : Ctx) (n : Nat) (v : VWord) : (k.setV n v).bcycles = k.bcycles := rfl
@[simp] theorem Ctx.setV_acks (k : Ctx) (n : Nat) (v : VWord) : (k.setV n v).acks = k.acks := rfl
@[simp] theorem Ctx.setV_sender (k : Ctx) (n : Nat) (v : VWord) : (k.setV n v).sender = k.sender := rfl
@[simp] theorem Ctx.setK_status (k : Ctx) (n : Nat) (v : KWord) : (k.setK n v).status = k.status := rfl
@[simp] theorem Ctx.setK_handler (k : Ctx) (n : Nat) (v : KWord) : (k.setK n v).handler = k.handler := rfl
@[simp] theorem Ctx.setK_trap (k : Ctx) (n : Nat) (v : KWord) : (k.setK n v).trap = k.trap := rfl
@[simp] theorem Ctx.setK_sys (k : Ctx) (n : Nat) (v : KWord) : (k.setK n v).sys = k.sys := rfl
@[simp] theorem Ctx.setK_pc (k : Ctx) (n : Nat) (v : KWord) : (k.setK n v).pc = k.pc := rfl
@[simp] theorem Ctx.setK_pcFrom (k : Ctx) (n : Nat) (v : KWord) : (k.setK n v).pcFrom = k.pcFrom := rfl
@[simp] theorem Ctx.setK_loops (k : Ctx) (n : Nat) (v : KWord) : (k.setK n v).loops = k.loops := rfl
@[simp] theorem Ctx.setK_flights (k : Ctx) (n : Nat) (v : KWord) : (k.setK n v).flights = k.flights := rfl
@[simp] theorem Ctx.setK_words (k : Ctx) (n : Nat) (v : KWord) : (k.setK n v).words = k.words := rfl
@[simp] theorem Ctx.setK_waited (k : Ctx) (n : Nat) (v : KWord) : (k.setK n v).waited = k.waited := rfl
@[simp] theorem Ctx.setK_since (k : Ctx) (n : Nat) (v : KWord) : (k.setK n v).since = k.since := rfl
@[simp] theorem Ctx.setK_granted (k : Ctx) (n : Nat) (v : KWord) : (k.setK n v).granted = k.granted := rfl
@[simp] theorem Ctx.setK_stalled (k : Ctx) (n : Nat) (v : KWord) : (k.setK n v).stalled = k.stalled := rfl
@[simp] theorem Ctx.setK_behind (k : Ctx) (n : Nat) (v : KWord) : (k.setK n v).behind = k.behind := rfl
@[simp] theorem Ctx.setK_ahead (k : Ctx) (n : Nat) (v : KWord) : (k.setK n v).ahead = k.ahead := rfl
@[simp] theorem Ctx.setK_started (k : Ctx) (n : Nat) (v : KWord) : (k.setK n v).started = k.started := rfl
@[simp] theorem Ctx.setK_pend (k : Ctx) (n : Nat) (v : KWord) : (k.setK n v).pend = k.pend := rfl
@[simp] theorem Ctx.setK_kept (k : Ctx) (n : Nat) (v : KWord) : (k.setK n v).kept = k.kept := rfl
@[simp] theorem Ctx.setK_budget0 (k : Ctx) (n : Nat) (v : KWord) : (k.setK n v).budget0 = k.budget0 := rfl
@[simp] theorem Ctx.setK_bcycles (k : Ctx) (n : Nat) (v : KWord) : (k.setK n v).bcycles = k.bcycles := rfl
@[simp] theorem Ctx.setK_acks (k : Ctx) (n : Nat) (v : KWord) : (k.setK n v).acks = k.acks := rfl
@[simp] theorem Ctx.setK_sender (k : Ctx) (n : Nat) (v : KWord) : (k.setK n v).sender = k.sender := rfl
@[simp] theorem Ctx.setG_v (k : Ctx) (n : Nat) (v : Word) (m : Nat) : (k.setG n v).v m = k.v m := by unfold Ctx.setG; split <;> rfl
@[simp] theorem Ctx.setG_k (k : Ctx) (n : Nat) (v : Word) (m : Nat) : (k.setG n v).k m = k.k m := by unfold Ctx.setG; split <;> rfl
@[simp] theorem Ctx.setV_g (k : Ctx) (n : Nat) (v : VWord) (m : Nat) : (k.setV n v).g m = k.g m := rfl
@[simp] theorem Ctx.setV_k (k : Ctx) (n : Nat) (v : VWord) (m : Nat) : (k.setV n v).k m = k.k m := rfl
@[simp] theorem Ctx.setK_g (k : Ctx) (n : Nat) (v : KWord) (m : Nat) : (k.setK n v).g m = k.g m := rfl
@[simp] theorem Ctx.setK_v (k : Ctx) (n : Nat) (v : KWord) (m : Nat) : (k.setK n v).v m = k.v m := rfl

/-- A general register reads as what was last written to it, and every other as before; g0 reads as zero. -/
theorem Ctx.g_setG (k : Ctx) (n : Nat) (v : Word) (m : Nat) : (k.setG n v).g m = if m = n ∧ n ≠ 0 then v else k.g m := by
  unfold Ctx.setG Ctx.g
  by_cases h0 : n = 0
  · simp [h0]
  · simp only [h0, if_false, Sparse.get_set]; grind

theorem Ctx.v_setV (k : Ctx) (n : Nat) (v : VWord) (m : Nat) : (k.setV n v).v m = if m = n then v else k.v m :=
  Sparse.get_set _ _ _ _ _

theorem Ctx.k_setK (k : Ctx) (n : Nat) (v : KWord) (m : Nat) : (k.setK n v).k m = if m = n then v else k.k m :=
  Sparse.get_set _ _ _ _ _

end Sys2Proof.Machine
end

