-- ==== Sys2Proof/Laws/Ops.lean ====
section
/-! SUPPORT. Laws of the shared operations: how an encoded instruction is carried out outside a gang, and what completing one, a write
of a register, a launch, a wait and a trap's entry each can do. -/

namespace Sys2Proof.Machine

/-! ## Carrying out (R133, R137, R172) -/

theorem execOne_of_mayRun {s : State} {use : Use} (h : s.mayRun use) (len : Nat) (mark : Bool) (body : State → State × Act) :
    execOne s.cur len mark use body s = match (body s).2 with
      | .done | .jump _ | .yield | .park => (finish s.cur len mark s ((body s).1.consume s.cur use) (body s).2, true)
      | .over | .trap _ _ | .wait _ | .stall => (finish s.cur len mark s (body s).1 (body s).2, false) := by
  have hb : (s.ctx s.cur).blocked use = false := h.2.1
  simp only [execOne, State.setCur_self, hb, h.2.2, Bool.false_eq_true, if_false]
  all_goals rfl

/-- An instruction that may be carried out and whose effect completes. -/
theorem meaning_completes {s : State} {use : Use} (o : Opnd) (body : State → State × Act) (h : s.mayRun use)
    (hd : (body s).2 = .done) : meaning o use body s = completes o use s (body s).1 := by
  simp only [meaning, runGang, h.1, execOne_of_mayRun h, hd, completes, State.completed, finish]

/-- An instruction that may be carried out and whose effect traps. -/
theorem meaning_traps {s : State} {use : Use} (o : Opnd) (body : State → State × Act) (h : s.mayRun use) {c : Cause} {i : Word}
    (hd : (body s).2 = .trap c i) : meaning o use body s = traps o s c i := by
  simp only [meaning, runGang, h.1, execOne_of_mayRun h, hd, traps, finish]

/-- An instruction that may be carried out and whose effect waits. -/
theorem meaning_waits {s : State} {use : Use} (o : Opnd) (body : State → State × Act) (h : s.mayRun use) {w : Wait}
    (hd : (body s).2 = .wait w) : meaning o use body s = waits s (body s).1 w := by
  simp only [meaning, runGang, h.1, execOne_of_mayRun h, hd, waits, finish]

/-- A transfer that may be carried out and is taken. -/
theorem transfer_jumps {s : State} {use useF : Use} (o : Opnd) (link : State → State) (body : State → State × Act) (h : s.mayRun use)
    {target : Word} (hd : (body s).2 = .jump target) : transferMeaning o use useF link body s = jumps o use s (body s).1 target := by
  simp only [transferMeaning, runGang, h.1, execOne_of_mayRun h, hd, jumps, State.jumped, finish]

/-- A transfer that may be carried out and is not taken. -/
theorem transfer_completes {s : State} {use useF : Use} (o : Opnd) (link : State → State) (body : State → State × Act) (h : s.mayRun use)
    (hd : (body s).2 = .done) : transferMeaning o use useF link body s = completes o use s (body s).1 := by
  simp only [transferMeaning, runGang, h.1, execOne_of_mayRun h, hd, completes, State.completed, finish]

/-- A transfer that may be carried out and traps. -/
theorem transfer_traps {s : State} {use useF : Use} (o : Opnd) (link : State → State) (body : State → State × Act) (h : s.mayRun use)
    {c : Cause} {i : Word} (hd : (body s).2 = .trap c i) : transferMeaning o use useF link body s = traps o s c i := by
  simp only [transferMeaning, runGang, h.1, execOne_of_mayRun h, hd, traps, finish]

/-- A register in flight stalls the instruction: its context is marked, so that `%ilock` counts the cycles that pass (R24, R135, R137). -/
theorem meaning_stalls {s : State} {use : Use} (o : Opnd) (body : State → State × Act)
    (hg : (s.tile s.cur.tile).gangOf s.cur.core s.cur.ctx = none) (hb : s.me.blocked use = true) :
    meaning o use body s = .next (s.modCtx s.cur fun k => { k with stalled := true }) := by
  have hb' : (s.ctx s.cur).blocked use = true := hb
  simp only [meaning, runGang, hg, execOne, State.setCur_self, hb', if_true, finish]

/-! ## What is left alone -/

theorem keepsMemory_refl (s : State) : keepsMemory s s := ⟨fun _ _ _ _ => rfl, fun _ => rfl⟩

theorem onlyRegisters_refl (s : State) (u : Cur) (ds : List Dest) : onlyRegisters s s u ds :=
  ⟨keepsMemory_refl s, fun _ _ => ⟨fun _ => rfl, fun _ => rfl, fun _ => rfl⟩, ⟨fun _ => ⟨rfl, rfl⟩, fun _ _ => ⟨rfl, rfl, rfl, rfl, rfl, rfl, rfl⟩⟩,
    ⟨fun _ => ⟨rfl, rfl, rfl, rfl⟩, fun _ _ => ⟨rfl, rfl, rfl, rfl⟩⟩, rfl, rfl, rfl, rfl, rfl, rfl, rfl, rfl, rfl⟩

theorem onlyRegisters_trans {r s t : State} {u : Cur} {ds : List Dest} (h : onlyRegisters r s u ds) (g : onlyRegisters s t u ds) :
    onlyRegisters r t u ds := by
  obtain ⟨⟨a1, a2⟩, b, ⟨c1, c2⟩, ⟨d1, d2⟩, e⟩ := h
  obtain ⟨⟨a1', a2'⟩, b', ⟨c1', c2'⟩, ⟨d1', d2'⟩, e'⟩ := g
  refine ⟨⟨fun y c sp a => (a1' y c sp a).trans (a1 y c sp a), fun a => (a2' a).trans (a2 a)⟩,
    fun v n => ⟨fun k => ((b' v n).1 k).trans ((b v n).1 k), fun k => ((b' v n).2.1 k).trans ((b v n).2.1 k),
      fun k => ((b' v n).2.2 k).trans ((b v n).2.2 k)⟩, ⟨fun v => ?_, fun y c => ?_⟩, ⟨fun y => ?_, fun y c => ?_⟩, ?_⟩
  · exact ⟨(c1' v).1.trans (c1 v).1, (c1' v).2.trans (c1 v).2⟩
  · have x := c2 y c; have z := c2' y c; simp_all
  · have x := d1 y; have z := d1' y; simp_all
  · have x := d2 y c; have z := d2' y c; simp_all
  · simp only [keepsOutside] at e e' ⊢; simp_all

theorem onlyRegisters_mono {s t : State} {u : Cur} {ds es : List Dest} (h : onlyRegisters s t u ds) (g : ∀ d ∈ ds, d ∈ es) :
    onlyRegisters s t u es :=
  ⟨h.1, fun v n => ⟨fun k => (h.2.1 v n).1 (k.imp id fun k x => k (g _ x)), fun k => (h.2.1 v n).2.1 (k.imp id fun k x => k (g _ x)),
    fun k => (h.2.1 v n).2.2 (k.imp id fun k x => k (g _ x))⟩, h.2.2⟩

/-- A change of a core that leaves alone all but its issue slot and its stream units. -/
theorem onlyRegisters_modCore (s : State) (t c : Nat) (f : Core → Core) (u : Cur)
    (h : ∀ k, (f k) = { k with issue := (f k).issue, streams := (f k).streams }) : onlyRegisters s (s.modCore t c f) u [] := by
  have part : ∀ {α : Type} (p : Core → α), (∀ k i j, p { k with issue := i, streams := j } = p k) → ∀ y d,
      p ((s.modCore t c f).core y d) = p (s.core y d) := by
    intro α p hp y d; exact State.core_modCore_part p s t c f (fun k => by rw [h k, hp]) y d
  have hx : ∀ v, (s.modCore t c f).ctx v = s.ctx v := by
    intro v; exact State.ctx_modCore s t c f (fun k => by rw [h k]) v
  refine ⟨⟨fun y d sp a => ?_, fun _ => rfl⟩, fun v n => ?_, ⟨fun v => ?_, fun y d => ?_⟩, ⟨fun y => ?_, fun y d => ?_⟩, ?_⟩
  · cases sp <;> simp only [State.localMem, State.tile_modCore_t, State.tile_modCore_x] <;>
      first | rfl | rw [part (·.a) (fun _ _ _ => rfl)] | rw [part (·.c) (fun _ _ _ => rfl)] | rw [part (·.w) (fun _ _ _ => rfl)]
  · simp [hx]
  · simp [hx]
  · exact ⟨part _ (fun _ _ _ => rfl) y d, part _ (fun _ _ _ => rfl) y d, part _ (fun _ _ _ => rfl) y d, part _ (fun _ _ _ => rfl) y d,
      part _ (fun _ _ _ => rfl) y d, part _ (fun _ _ _ => rfl) y d, part _ (fun _ _ _ => rfl) y d⟩
  · simp
  · exact ⟨part _ (fun _ _ _ => rfl) y d, part _ (fun _ _ _ => rfl) y d, part _ (fun _ _ _ => rfl) y d, part _ (fun _ _ _ => rfl) y d⟩
  · exact ⟨rfl, rfl, rfl, rfl, rfl, rfl, rfl, rfl, rfl⟩

/-- A change of a context that leaves alone its trap, flag and system registers, and all but some of its registers. -/
theorem onlyRegisters_modCtx (s : State) (u : Cur) (f : Ctx → Ctx) (ds : List Dest)
    (hr : ∀ n, (.g n ∉ ds → (f (s.ctx u)).g n = (s.ctx u).g n) ∧ (.v n ∉ ds → (f (s.ctx u)).v n = (s.ctx u).v n) ∧
      (.k n ∉ ds → (f (s.ctx u)).k n = (s.ctx u).k n))
    (ht : (f (s.ctx u)).trap = (s.ctx u).trap) (hs : (f (s.ctx u)).sys = (s.ctx u).sys) : onlyRegisters s (s.modCtx u f) u ds := by
  refine ⟨⟨fun y d sp a => ?_, fun _ => rfl⟩, fun v n => ?_, ⟨fun v => ?_, fun y d => ?_⟩, ⟨fun y => ?_, fun y d => ?_⟩, ?_⟩
  · cases sp <;> simp [State.localMem]
  · rw [State.ctx_modCtx]
    by_cases e : v = u
    · subst e
      simp only [if_pos, ne_eq, not_true_eq_false, false_or]; exact hr n
    · simp [e]
  · rw [State.ctx_modCtx]; by_cases e : v = u
    · subst e; simp [ht, hs]
    · simp [e]
  · simp
  · simp
  · simp
  · exact ⟨rfl, rfl, rfl, rfl, rfl, rfl, rfl, rfl, rfl⟩

theorem onlyRegisters_drawTicket (s : State) (u : Cur) : onlyRegisters s s.drawTicket u [] :=
  ⟨⟨fun _ _ _ _ => by simp [State.localMem], fun _ => rfl⟩, fun _ _ => by simp, ⟨fun _ => by simp, fun _ _ => by simp⟩,
    ⟨fun _ => by simp, fun _ _ => by simp⟩, by simp [keepsOutside]⟩

/-- The end of a switch group changes the issue slot and the context's place in its rotation alone. -/
theorem onlyRegisters_endGroup (s : State) (u : Cur) : onlyRegisters s (s.endGroup u) u [] := by
  unfold State.endGroup
  refine onlyRegisters_trans (onlyRegisters_trans (onlyRegisters_drawTicket s u) ?_) (onlyRegisters_modCore _ _ _ _ u fun _ => rfl)
  exact onlyRegisters_modCtx _ u _ [] (fun n => ⟨fun _ => rfl, fun _ => rfl, fun _ => rfl⟩) rfl rfl

theorem onlyRegisters_atMarker (s : State) (u : Cur) (mark : Bool) : onlyRegisters s (s.atMarker u mark) u [] := by
  unfold State.atMarker
  split
  · refine onlyRegisters_trans (onlyRegisters_endGroup s u) ?_
    exact onlyRegisters_modCtx _ u _ [] (fun n => ⟨fun _ => rfl, fun _ => rfl, fun _ => rfl⟩) rfl rfl
  · exact onlyRegisters_refl s u []

/-- Taking elements of stream registers changes stream units alone. -/
theorem onlyRegisters_consume (s : State) (u v : Cur) (use : Use) : onlyRegisters s (s.consume u use) v [] := by
  have one : ∀ (vec : Bool) (s : State) (n : Nat), onlyRegisters s
      (match (s.core u.tile u.core).binding u.ctx vec n with
        | some b => if b.write then s else s.modCore u.tile u.core fun k => k.modBinding (unitOf vec n) Binding.take
        | none => s) v [] := by
    intro vec s n
    split
    · split
      · exact onlyRegisters_refl s v []
      · exact onlyRegisters_modCore s _ _ _ v fun _ => rfl
    · exact onlyRegisters_refl s v []
  have all : ∀ (vec : Bool) (l : List Nat) (s : State), onlyRegisters s (l.foldl (fun s n =>
      match (s.core u.tile u.core).binding u.ctx vec n with
        | some b => if b.write then s else s.modCore u.tile u.core fun k => k.modBinding (unitOf vec n) Binding.take
        | none => s) s) v [] := by
    intro vec l
    induction l with
    | nil => intro s; exact onlyRegisters_refl s v []
    | cons n l ih => intro s; exact onlyRegisters_trans (one vec s n) (ih _)
  exact onlyRegisters_trans (all false _ s) (all true _ _)

/-- Completion changes stream units, the context's progress and the issue slot alone. -/
theorem onlyRegisters_completed (s : State) (u : Cur) (o : Opnd) (use : Use) : onlyRegisters s (s.completed u o use) u [] := by
  unfold State.completed
  refine onlyRegisters_trans (onlyRegisters_trans (onlyRegisters_consume s u u use) ?_) (onlyRegisters_atMarker _ u o.mark)
  exact onlyRegisters_modCtx _ u _ [] (fun n => ⟨fun _ => rfl, fun _ => rfl, fun _ => rfl⟩) rfl rfl

theorem onlyRegisters_jumped (s : State) (u : Cur) (o : Opnd) (use : Use) (target : Word) :
    onlyRegisters s (s.jumped u o use target) u [] := by
  unfold State.jumped
  refine onlyRegisters_trans (onlyRegisters_trans (onlyRegisters_consume s u u use) ?_) (onlyRegisters_atMarker _ u o.mark)
  exact onlyRegisters_modCtx _ u _ [] (fun n => ⟨fun _ => rfl, fun _ => rfl, fun _ => rfl⟩) rfl rfl

/-- What follows a change that may have struck a chase leaves the rest as that change did. -/
theorem onlyRegisters_trans_chases {r s t : State} {u : Cur} {ds : List Dest} (h : onlyRegisters r { s with chases := r.chases } u ds)
    (g : onlyRegisters s t u ds) : onlyRegisters r { t with chases := r.chases } u ds ∧ t.chases = s.chases := by
  refine ⟨onlyRegisters_trans h ?_, g.2.2.2.2.2.2.2.1⟩
  obtain ⟨a, b, c, d, e⟩ := g
  exact ⟨a, b, c, d, e.1, e.2.1, e.2.2.1, rfl, e.2.2.2.2⟩

/-- A strike changes the chases alone. -/
theorem strikeTile_others (s : State) (t : Nat) : { s.strikeTile t with chases := s.chases } = s := by
  unfold State.strikeTile; split <;> rfl

/-- Appending to a stream changes its stream unit, and may strike the tile's chase where it meets a data error (R133, R225). -/
theorem onlyRegisters_appendFor (s : State) (w : Cur) (vec : Bool) (n v : Nat) (keep : Option Nat) (u : Cur) :
    onlyRegisters s { s.appendFor w vec n v keep with chases := s.chases } u [] := by
  unfold State.appendFor
  split
  · split
    · rename_i b _ _
      have h : ∀ c, ({ (s.modCore w.tile w.core fun k => k.modBinding (unitOf vec n) fun _ => c).strikeNew w.tile b c with
          chases := s.chases } : State) = s.modCore w.tile w.core fun k => k.modBinding (unitOf vec n) fun _ => c := by
        intro c; unfold State.strikeNew; split
        · exact strikeTile_others (s.modCore w.tile w.core fun k => k.modBinding (unitOf vec n) fun _ => c) _
        · rfl
      simp only [h]
      exact onlyRegisters_modCore s _ _ _ u fun _ => rfl
    · exact onlyRegisters_refl s u []
  · exact onlyRegisters_refl s u []

/-- A change of a context strikes no chase. -/
theorem modCtx_chases (s : State) (u : Cur) (f : Ctx → Ctx) : ({ s.modCtx u f with chases := s.chases } : State) = s.modCtx u f := rfl

/-- Writing a general register changes that register, or its stream unit, alone; an append to the stream may strike the tile's chase. -/
theorem onlyRegisters_wg (s : State) (n : Nat) (v : Word) : onlyRegisters s { s.wg n v with chases := s.chases } s.cur [.g n] := by
  unfold State.wg
  split
  · exact onlyRegisters_mono (onlyRegisters_appendFor s _ _ _ _ _ _) (by simp)
  · rw [State.modMe, modCtx_chases]
    refine onlyRegisters_modCtx s s.cur _ [.g n] (fun m => ⟨fun hm => ?_, fun _ => Ctx.setG_v _ _ _ _, fun _ => Ctx.setG_k _ _ _ _⟩)
      (Ctx.setG_trap _ _ _) (Ctx.setG_sys _ _ _)
    rw [Ctx.g_setG, if_neg]; rintro ⟨rfl, -⟩; simp at hm

/-- A register that is no stream register is written with nothing struck. -/
theorem chases_wg (s : State) (n : Nat) (v : Word) (h : s.myCore.binding s.cur.ctx false n = none) : (s.wg n v).chases = s.chases := by
  simp only [State.wg, h]; rfl

theorem onlyRegisters_wv (s : State) (n : Nat) (v : VWord) : onlyRegisters s { s.wv n v with chases := s.chases } s.cur [.v n] := by
  unfold State.wv
  split
  · exact onlyRegisters_mono (onlyRegisters_appendFor s _ _ _ _ _ _) (by simp)
  · rw [State.modMe, modCtx_chases]
    refine onlyRegisters_modCtx s s.cur _ [.v n] (fun m => ⟨fun _ => rfl, fun hm => ?_, fun _ => rfl⟩) rfl rfl
    rw [Ctx.v_setV, if_neg]; rintro rfl; simp at hm

theorem onlyRegisters_wk (s : State) (n : Nat) (v : KWord) : onlyRegisters s (s.wk n v) s.cur [.k n] := by
  unfold State.wk
  refine onlyRegisters_modCtx s s.cur _ [.k n] (fun m => ⟨fun _ => rfl, fun _ => rfl, fun hm => ?_⟩) rfl rfl
  rw [Ctx.k_setK, if_neg]; rintro rfl; simp at hm

/-- A result in flight changes no register yet (R137). -/
theorem onlyRegisters_launch (s : State) (d : Dest) (v : Payload) (len : Nat) : onlyRegisters s (s.launch d v len) s.cur [] :=
  onlyRegisters_modCtx s s.cur _ [] (fun _ => ⟨fun _ => rfl, fun _ => rfl, fun _ => rfl⟩) rfl rfl

/-- A long-latency result changes no register yet: it is in flight, or has gone to the register's stream. -/
theorem onlyRegisters_lg (s : State) (n : Nat) (v : Payload) (len : Nat) :
    onlyRegisters s { s.lg n v len with chases := s.chases } s.cur [] := by
  unfold State.lg
  split
  · exact onlyRegisters_appendFor s _ _ _ _ _ _
  · exact onlyRegisters_launch s _ _ _

theorem onlyRegisters_lv (s : State) (n : Nat) (v : Payload) (len : Nat) :
    onlyRegisters s { s.lv n v len with chases := s.chases } s.cur [] := by
  unfold State.lv
  split
  · exact onlyRegisters_appendFor s _ _ _ _ _ _
  · exact onlyRegisters_launch s _ _ _

theorem lg_of_unbound (s : State) (n : Nat) (v : Payload) (len : Nat) (h : s.myCore.binding s.cur.ctx false n = none) :
    s.lg n v len = s.launch (.g n) v len := by simp only [State.lg, h]

theorem lv_of_unbound (s : State) (n : Nat) (v : Payload) (len : Nat) (h : s.myCore.binding s.cur.ctx true n = none) :
    s.lv n v len = s.launch (.v n) v len := by simp only [State.lv, h]

end Sys2Proof.Machine
end

