-- ==== Sys2Proof/Tests/Slice0.lean ====
section
/-! SUPPORT. Tests of the decoder on words written out from the encodings of the spec, of well-formedness, and of single steps on small
states; and for each statement with hypotheses a state and operands that meet them. -/

set_option maxRecDepth 100000
set_option Elab.async false

namespace Sys2Proof.Tests

open Sys2Proof.Machine

/-! ## Decoding -/

/-- An operand record with nothing set. -/
def o0 : Opnd := { mark := false, p := false, fx := 0, m := none, r := false, ni := 0, d := 0, a := 0, b := 0, f := 0, x := 0, imm := 0 }

/-- What the decoder reads from some words. -/
def read (ws : List Parcel) : Option (Instr × Nat) :=
  match decode ws with
  | .ok r => some r
  | .error _ => none

/-- The cause for which the decoder refuses some words: 1 PREFIX_CHAIN, 2 ILLEGAL_ENCODING, 3 RESERVED_NONZERO, 0 for none. -/
def refused (ws : List Parcel) : Nat :=
  match decode ws with
  | .error (.prefixChain _) => 1
  | .error (.illegal _ _) => 2
  | .error (.reserved _ _) => 3
  | .error .empty => 4
  | .ok _ => 0

/-- Spec 02, worked encodings: SUB g20, g3, g41. -/
theorem test_decode_sub : read [0x7529, 0x010D] = some (.sub { o0 with r := true, d := 20, a := 3, b := 41, f := 1 }, 2) := rfl

/-- R43, R44, R46: ADDI g20, g30, 5. -/
theorem test_decode_addi : read [0x751E, 0x0D05] = some (.addi { o0 with r := true, d := 20, b := 30, imm := 5 }, 2) := rfl

/-- R50: MOVI g4, −40000 takes two PX.I. -/
theorem test_decode_movi : read [0x73FF, 0x718F, 0x1100] = some (.movi { o0 with ni := 2, d := 4, imm := -40000 }, 3) := rfl

/-- R157 to R159: MAX g5, g6, and BFX g5, g6, 8, 4. -/
theorem test_decode_page_one_arithmetic :
    read [0x7881, 0x0D59] = some (.max { o0 with p := true, fx := 1, d := 5, a := 6, f := 1 }, 2) ∧
    read [0x7880, 0x7000, 0x70C8, 0x1158] = some (.bfx { o0 with p := true, ni := 2, d := 5, a := 6, imm := 200 }, 4) := ⟨rfl, rfl⟩

/-- R46, R51: BLT g5, g9 twelve words back, and CALL forty-eight words back. -/
theorem test_decode_transfers :
    read [0x73F4, 0x6166] = some (.blt { o0 with ni := 1, d := 5, a := 9, f := 2, imm := -12 }, 2) ∧
    read [0x4DD0] = some (.call { o0 with f := 1, imm := -48 }, 1) := ⟨rfl, rfl⟩

/-- R53: NOP, JR g5, RET, SWITCH, and ENDH with the switch marker. -/
theorem test_decode_zero_operand :
    read [0x6400] = some (.nop o0, 1) ∧ read [0x6454] = some (.jr { o0 with x := 0x054 }, 1) ∧
    read [0x64C0] = some (.ret { o0 with x := 0x0C0 }, 1) ∧ read [0x6540] = some (.switch { o0 with x := 0x140 }, 1) ∧
    read [0xE500] = some (.endh { o0 with mark := true, x := 0x100 }, 1) := ⟨rfl, rfl, rfl, rfl, rfl⟩

/-- R54 to R56: a load of A, a sign-extending load, a window load and a quire load. -/
theorem test_decode_loads :
    read [0x7C80, 0x7407, 0x700C, 0x315A] = some (.ld { o0 with m := some 0x080, r := true, ni := 1, d := 5, a := 6, b := 7, f := 2, imm := 12 }, 4) ∧
    read [0x7C40, 0x3159] = some (.ld { o0 with m := some 0x040, d := 5, a := 6, f := 1 }, 2) ∧
    read [0x7C03, 0x7005, 0x39D8] = some (.ldw { o0 with m := some 3, ni := 1, d := 7, a := 6, imm := 5 }, 3) ∧
    read [0x7CFA, 0x419F] = some (.ldq { o0 with m := some 0x0FA, d := 6, a := 7, f := 3 }, 2) := ⟨rfl, rfl, rfl, rfl⟩

/-- R160 to R162: atomics and an acquiring load. -/
theorem test_decode_atomics :
    read [0x7880, 0x7E04, 0x7489, 0x15E0] = some (.amoadd { o0 with p := true, m := some 0x204, r := true, d := 7, a := 40, b := 9 }, 4) ∧
    read [0x7880, 0x7407, 0x195B] = some (.amocas { o0 with p := true, r := true, d := 5, a := 6, b := 7, f := 3 }, 3) ∧
    read [0x7880, 0x7405, 0x198E] = some (.amoswp { o0 with p := true, r := true, d := 6, a := 3, b := 5, f := 2 }, 3) ∧
    read [0x7880, 0x7E10, 0x1DAF] = some (.lda { o0 with p := true, m := some 0x210, d := 6, a := 11, f := 3 }, 3) := ⟨rfl, rfl, rfl, rfl⟩

/-- R163 to R189: FENCE.tile, MFS of two registers, MTS, RDTIME, ERET, WAITEV and POLLEV. -/
theorem test_decode_system :
    read [0x7880, 0x2420] = some (.fence { o0 with p := true, x := 0x020 }, 2) ∧
    read [0x7880, 0x3E5A] = some (.mfs { o0 with p := true, d := 9, imm := 26 }, 2) ∧
    read [0x7880, 0x4309] = some (.mts { o0 with p := true, d := 12, imm := 9 }, 2) ∧
    read [0x7880, 0x5300] = some (.rdtime { o0 with p := true, d := 12 }, 2) ∧
    read [0x7880, 0x4400] = some (.eret { o0 with p := true }, 2) ∧
    read [0x7880, 0x2D00] = some (.waitev { o0 with p := true, d := 4 }, 2) ∧
    read [0x7880, 0x2D01] = some (.pollev { o0 with p := true, d := 4, f := 1 }, 2) := ⟨rfl, rfl, rfl, rfl, rfl, rfl, rfl⟩

/-- R283: VCDOT4 v2, v4, v5. -/
theorem test_decode_vector :
    read [0x7900, 0x7405, 0x4093] = some (.vcdot4 { o0 with p := true, r := true, d := 2, a := 4, b := 5, f := 3 }, 3) := rfl

/-- R401, R438: CLKPLAN, QLOAD, QUNMAP, QMAP and QSAVE. -/
theorem test_decode_micro_kernel :
    read [0x7B80, 0x2158] = some (.clkplan { o0 with p := true, d := 5, a := 6 }, 2) ∧
    read [0x7B80, 0x0950] = some (.qload { o0 with p := true, d := 5, a := 4 }, 2) ∧
    read [0x7B80, 0x0ADB] = some (.qunmap { o0 with p := true, d := 11, a := 6, f := 3 }, 2) ∧
    read [0x7B80, 0x7404, 0x0ADA] = some (.qmap { o0 with p := true, r := true, d := 11, a := 6, b := 4, f := 2 }, 3) ∧
    read [0x7B80, 0x0959] = some (.qsave { o0 with p := true, d := 5, a := 6, f := 1 }, 2) := ⟨rfl, rfl, rfl, rfl, rfl⟩

/-- R47, R49, R68: two PX.R, a PX.R before a PX.P, a chain that X ends, and an encoding with a PX.I that its row refuses. -/
theorem test_decode_refuses :
    refused [0x7400, 0x7400, 0x0000] = 1 ∧ refused [0x7400, 0x7880, 0x0000] = 1 ∧ refused [0x7880] = 1 ∧
    refused [0x7B80, 0x7001, 0x2158] = 2 ∧ refused [0x7B80, 0x7401, 0x2158] = 3 := ⟨rfl, rfl, rfl, rfl, rfl⟩

/-! ## Well-formedness -/

theorem test_wf_accepts : Instr.wf (.sub { o0 with r := true, d := 20, a := 3, b := 41, f := 1 }) = true := by decide
theorem test_wf_da_has_no_sub_operation : Instr.wf (.sub { o0 with f := 1, x := 1 }) = false := by decide
theorem test_wf_di_has_no_function : Instr.wf (.addi { o0 with f := 1 }) = false := by decide
theorem test_wf_gb_has_no_function : Instr.wf (.loop { o0 with f := 1 }) = false := by decide
theorem test_wf_bo_has_no_register : Instr.wf (.call { o0 with f := 1, d := 1 }) = false := by decide
theorem test_wf_zx_has_no_register : Instr.wf (.nop { o0 with a := 1 }) = false := by decide
theorem test_wf_fx_needs_a_page_prefix : Instr.wf (.sub { o0 with f := 1, fx := 1 }) = false := by decide
theorem test_wf_high_register_needs_a_prefix : Instr.wf (.sub { o0 with d := 16, f := 1 }) = false := by decide
theorem test_wf_at_most_three_immediates : Instr.wf (.addi { o0 with ni := 4 }) = false := by decide
theorem test_wf_at_most_four_prefixes :
    Instr.wf (.addi { o0 with p := true, m := some 0, r := true, ni := 3 }) = false := by decide
theorem test_wf_immediate_fits : Instr.wf (.addi { o0 with imm := 31 }) = true ∧ Instr.wf (.addi { o0 with imm := 32 }) = false ∧
    Instr.wf (.addi { o0 with imm := -32 }) = true ∧ Instr.wf (.addi { o0 with imm := -33 }) = false := by decide
theorem test_wf_mode_prefix_where_the_row_takes_it : Instr.wf (.sub { o0 with f := 1, m := some 0 }) = false := by decide
theorem test_wf_register_prefix_where_the_row_needs_it : Instr.wf (.amocas { o0 with p := true, d := 5, a := 6, f := 3 }) = false := by decide
theorem test_wf_immediates_of_the_row : Instr.wf (.clkplan { o0 with p := true, ni := 1, d := 5, a := 6 }) = false := by decide
theorem test_wf_illegal_space : Instr.wf (.ld { o0 with m := some 0x300, d := 5, a := 6, f := 3 }) = false := by decide
theorem test_wf_reserved_field : Instr.wf (.clkplan { o0 with p := true, r := true, d := 5, a := 6, b := 1 }) = false := by decide
theorem test_wf_selects_its_instruction : Instr.wf (.sub o0) = false := by decide

/-! ## Single steps -/

/-- Tile 0, core 0, context 0, at privilege `priv`, with some general registers set: the context under way. -/
def at_ (priv : Bool) (gs : List (Nat × Word)) : State :=
  (State.reset.modCtx ⟨0, 0, 0⟩ fun k => { k with
    status := .running, regs := { k.regs with g := gs }, trap := { k.trap with ts := { k.trap.ts with priv := priv } } })

/-- What some outcome tells of its state. -/
def tells {α : Type} (f : State → α) : Host.Outcome State Fault Refusal → Option α
  | .next t => some (f t)
  | .fault _ => none
  | .refused _ => none

/-- A general register after an instruction. -/
def reg (n : Nat) (r : Host.Outcome State Fault Refusal) : Option Word := tells (fun t => t.me.g n) r

/-- The pc after an instruction. -/
def pcOf (r : Host.Outcome State Fault Refusal) : Option Word := tells (fun t => t.me.pc) r

/-- The values that an instruction put in flight. -/
def flies (r : Host.Outcome State Fault Refusal) : Option (List Payload) := tells (fun t => t.me.flights.map (·.value)) r

/-- The cause and the information of the trap that an instruction entered. -/
def trapped (r : Host.Outcome State Fault Refusal) : Option (Nat × Nat) :=
  tells (fun t => (t.me.trap.cause.toNat, t.me.trap.einfo.toNat)) r

/-- d = 5, a = 6. -/
def da : Opnd := { o0 with d := 5, a := 6 }

/-- d = 5, a = 6, b = 7. -/
def dab : Opnd := { o0 with r := true, d := 5, a := 6, b := 7 }

/-- R141: ADD wraps; the two-operand form adds to d. -/
theorem test_add_wraps : reg 5 (exec (.add da) (at_ false [(5, 0xFFFFFFFFFFFFFFFF), (6, 3)])) = some 2 := by decide +kernel
theorem test_sub_order : reg 5 (exec (.sub dab) (at_ false [(6, 3), (7, 5)])) = some 0xFFFFFFFFFFFFFFFE := by decide +kernel
/-- R141: only the low six bits of a shift count are used. -/
theorem test_shl_count : reg 5 (exec (.shl dab) (at_ false [(6, 3), (7, 65)])) = some 6 := by decide +kernel
theorem test_sar_sign : reg 5 (exec (.sar dab) (at_ false [(6, 0x8000000000000000), (7, 63)])) = some 0xFFFFFFFFFFFFFFFF := by decide +kernel
theorem test_slt_is_signed : reg 5 (exec (.slt dab) (at_ false [(6, 0xFFFFFFFFFFFFFFFF), (7, 0)])) = some 1 := by decide +kernel
theorem test_sltz_is_unsigned : reg 5 (exec (.sltz dab) (at_ false [(6, 0xFFFFFFFFFFFFFFFF), (7, 0)])) = some 0 := by decide +kernel
theorem test_g0_stays_zero : reg 0 (exec (.add { o0 with a := 6 }) (at_ false [(6, 3)])) = some 0 := by decide +kernel
/-- R142: ANDI extends its immediate. -/
theorem test_andi_extends : reg 5 (exec (.andi { o0 with d := 5, imm := -2 }) (at_ false [(5, 0xFF)])) = some 0xFE := by decide +kernel
theorem test_slti_signed : reg 5 (exec (.slti { o0 with d := 5, imm := -1 }) (at_ false [(5, 0xFFFFFFFFFFFFFFFE)])) = some 1 := by decide +kernel
/-- R157, R158. -/
theorem test_clz_zero : reg 5 (exec (.clz { da with p := true }) (at_ false [])) = some 64 := by decide +kernel
theorem test_brev : reg 5 (exec (.brev { da with p := true, f := 3 }) (at_ false [(6, 1)])) = some 0x8000000000000000 := by decide +kernel
theorem test_abs_least : reg 5 (exec (.abs { da with p := true, f := 2 }) (at_ false [(6, 0x8000000000000000)])) = some 0x8000000000000000 := by
  decide +kernel
theorem test_min_signed : reg 5 (exec (.min { dab with p := true, fx := 1 }) (at_ false [(6, 0xFFFFFFFFFFFFFFFF), (7, 1)])) =
    some 0xFFFFFFFFFFFFFFFF := by decide +kernel
/-- R155: MULH of −1 and −1 is 0; MULW sign-extends. -/
theorem test_mulh : flies (exec (.mulh dab) (at_ false [(6, 0xFFFFFFFFFFFFFFFF), (7, 0xFFFFFFFFFFFFFFFF)])) = some [.word 0] := by
  decide +kernel
theorem test_mulw : flies (exec (.mulw dab) (at_ false [(6, 0x10000), (7, 0x8000)])) = some [.word 0xFFFFFFFF80000000] := by decide +kernel
/-- R156: −2^63 / −1 is −2^63; a divisor of zero traps DIVIDE_ZERO with the dividend. -/
theorem test_div_least : flies (exec (.div dab) (at_ false [(6, 0x8000000000000000), (7, 0xFFFFFFFFFFFFFFFF)])) =
    some [.word 0x8000000000000000] := by decide +kernel
theorem test_rem_sign : flies (exec (.rem dab) (at_ false [(6, 0xFFFFFFFFFFFFFFF9), (7, 2)])) = some [.word 0xFFFFFFFFFFFFFFFF] := by
  decide +kernel
theorem test_div_zero : trapped (exec (.div dab) (at_ false [(6, 9)])) = some (Cause.divideZero.code, 9) := by decide +kernel
/-- R148, R149, R151: transfers count words from their first word; CALL links to the next word. -/
theorem test_call : tells (fun t => (t.me.pc, t.me.g 1)) (exec (.call { o0 with f := 1, imm := -48 })
    ((at_ false []).modMe fun k => { k with pc := 0x80 })) = some (0x20, 0x82) := by decide +kernel
theorem test_bz_untaken : pcOf (exec (.bz { o0 with d := 5, imm := 8 }) (at_ false [(5, 1)])) = some 2 := by decide +kernel
theorem test_bltz_taken : pcOf (exec (.bltz { o0 with d := 5, imm := 8 }) (at_ false [(5, 0x8000000000000000)])) = some 16 := by
  decide +kernel
theorem test_callr_g1 : tells (fun t => (t.me.pc, t.me.g 1)) (exec (.callr { o0 with x := 0x084 }) (at_ false [(1, 0x400)])) =
    some (0x400, 2) := by decide +kernel
/-- R145, R7: bytes lie least significant first; LD.h.sx extends its sign. -/
theorem test_st_bytes : tells (fun t => [0x103, 0x104, 0x105, 0x106].map fun a => t.readLocal 0 0 .t noKey a 1)
    (exec (.st { o0 with r := true, ni := 1, d := 5, a := 6, b := 7, f := 1, imm := 4 }) (at_ false [(5, 0xABCDEF), (6, 0xF0), (7, 0x10)])) =
    some [0, 0xEF, 0xCD, 0] := by decide +kernel
theorem test_ld_sign : flies (exec (.ld { o0 with m := some 0x040, d := 5, a := 6, f := 1 })
    ((at_ false [(6, 0x100)]).writeLocal 0 0 .t noKey 0x100 2 0x8001)) = some [.word 0xFFFFFFFFFFFF8001] := by decide +kernel
/-- R103, R105: an access at the end of T that runs past it. -/
theorem test_ld_beyond : trapped (exec (.ld { da with f := 3 }) (at_ false [(6, 0x100000)])) =
    some (Cause.spaceRange.code, (infoM 0x100000 0 3 false).toNat) := by decide +kernel
/-- R107, R109, worked example: the banks of 0x1_2380 and 0x1_3380 under %bkey 0x001F_10FF_0012_1002. -/
theorem test_banks : tPlace 0x1F10FF00121002 0x12380 = 0x12000 + 128 * 4 ∧ tPlace 0x1F10FF00121002 0x13380 = 0x13000 + 128 * 20 ∧
    tPlace 0x1F10FF00121002 0x14380 = 0x14000 + 128 * 1 ∧ tPlace 0x1F10FF00121002 0x15380 = 0x15000 + 128 * 17 := by decide +kernel
/-- R113, worked example: the window of tf8 elements, %wdesc3 = 0x0008_3001_0010_0400. -/
theorem test_ldw : flies (exec (.ldw { o0 with m := some 3, ni := 1, d := 7, a := 6, imm := 5 })
    (((at_ false []).modMyCore fun k => { k with wdesc := [(3, 0x0008300100100400)] }).writeLocal 0 0 .a noKey 0x405 1 0x3D)) =
    some [.word 0x40500000] := by decide +kernel
theorem test_stw : tells (fun t => (t.readLocal 0 0 .a noKey 0x405 1, t.me.sys.fflags.toNat != 0))
    (exec (.stw { o0 with m := some 3, ni := 1, d := 4, a := 6, imm := 5 })
      ((at_ false [(4, 0x40533333)]).modMyCore fun k => { k with wdesc := [(3, 0x0008300100100400)] })) = some (0x3D, true) := by
  decide +kernel
/-- R160: AMOCAS leaves memory where the comparison fails, and answers the old value. -/
theorem test_amocas : tells (fun t => (t.readLocal 0 0 .t noKey 0x100 8, t.me.flights.map (·.value)))
    (exec (.amocas { dab with p := true, f := 3 }) (at_ false [(5, 1), (6, 0x100), (7, 9)])) = some (0, [.word 0]) := by decide +kernel
theorem test_amoadd : tells (fun t => t.readLocal 0 0 .t noKey 0x100 8)
    (exec (.amoadd { dab with p := true }) (at_ false [(6, 0x100), (7, 9)])) = some 9 := by decide +kernel
/-- R186: TRAP enters the handler at %tvec with the pc saved, at supervisor privilege, with traps off. -/
theorem test_trap : tells (fun t => (t.me.pc, t.me.trap.epc.toNat, t.me.trap.ts.priv, t.me.trap.ts.te, t.me.trap.ts.ppriv))
    (exec (.trap { o0 with p := true }) (((at_ false []).modMe fun k => { k with pc := 0x40 }).modMyCore fun k => { k with tvec := 0x18000 })) =
    some (0x18000, 0x40, true, false, false) := by decide +kernel
/-- R189: ERET goes back past the instruction of a trap. -/
theorem test_eret : tells (fun t => (t.me.pc, t.me.trap.ts.priv, t.me.trap.ts.te))
    (exec (.eret { o0 with p := true }) ((at_ true []).modMe fun k => { k with trap := { k.trap with
      epc := 0x40, ts := { k.trap.ts with te := false, skip := true, len := 2 } } })) = some (0x44, false, true) := by decide +kernel
/-- R68: a micro-kernel instruction at user privilege. -/
theorem test_privilege : (trapped (exec (.clkplan { da with p := true }) (at_ false []))).map Prod.fst = some Cause.privilege.code := by
  decide +kernel
/-- R331: a SEND without an arc. -/
theorem test_send_unbound : trapped (exec (.sendg { o0 with p := true, d := 5, a := 3 }) (at_ false [])) =
    some (Cause.portUnbound.code, 19) := by decide +kernel
/-- R200, R203: CPSET writes a shadow register; nothing has completed after reset, so that CPDONE reads 1. -/
theorem test_cpset : tells (fun t => (t.channel 0 2).shadow.get 0 4) (exec (.cpset { o0 with p := true, fx := 4, d := 2, a := 6 })
    (at_ false [(6, 77)])) = some 77 := by decide +kernel
theorem test_cpdone : reg 5 (exec (.cpdone { o0 with p := true, d := 5, a := 2 }) (at_ false [])) = some 1 := by decide +kernel
/-- R169: PRIO above the cap. -/
theorem test_prio_cap : trapped (exec (.prio { o0 with p := true, imm := 2 }) (at_ false [])) =
    some (Cause.priorityRange.code, 2 + 256) := by decide +kernel
/-- R288, worked example: VCDOT4 of (3 − 2i)(1 + i) and (1 + i)(1 − i) on 10 − 3i. -/
theorem test_vcdot4 : (flies (exec (.vcdot4 { o0 with p := true, r := true, d := 2, a := 4, b := 5, f := 3 })
    ((at_ false []).modMe fun k => { k with regs := { k.regs with
      v := [(2, 0xFFFFFFFD0000000A), (4, 0x11E3), (5, 0xF111)] } }))).map (·.map fun p => match p with
        | .vec v => v.toNat % 2 ^ 64
        | _ => 0) = some [0xFFFFFFFE00000011] := by decide +kernel
/-- R283: KNOT and KPOPC over 128 bits. -/
theorem test_kpopc : flies (exec (.kpopc { o0 with p := true, fx := 1, d := 5, a := 1 })
    ((at_ false []).modMe fun k => { k with regs := { k.regs with k := [(1, 0xF0F)] } })) = some [.word 8] := by decide +kernel

/-! ## Steps that no word encodes -/

/-- R175: the timer fires at its deadline and is off after it. -/
theorem test_timer : tells (fun t => ((t.core 0 0).ktimer, (t.core 0 0).npend.getLsbD (noticeBit .timer)))
    (exec (.timer 0 0) ((at_ false []).modMyCore fun k => { k with ktimer := 0x8000000000000000 })) = some (0, true) := by decide +kernel
/-- R391: an accepted kick of a galley that is not enabled latches the tail and does nothing else. -/
theorem test_kick_disabled : tells (fun t => ((t.galley 7).tail.toNat, (t.galley 7).pending)) (exec (.kick 7 5)
    ((at_ false []).modGalleys fun g => { g with kicks := [(7, 5)] })) = some (5, false) := by decide +kernel
/-- R34: an event that finds another message than its own changes nothing. -/
theorem test_token_of_no_tile : tells (fun t => t.net.length) (exec (.tokenArrival 0) { at_ false [] with net := [.seamAck 0 0] }) =
    some 1 := by decide +kernel
/-- R461: IDCODE. -/
theorem test_idcode : tells (fun t => t.plat.jtag.out.map (·.toNat)) (exec .idcode (at_ false [])) = some [0x5B, 0x1C, 0x57, 0x0F] := by
  decide +kernel
/-- R444: a tile over its clamp for 1 µs lowers its step by one. -/
theorem test_clamp : tells (fun t => (t.tile 0).clk.step) (exec (.currentClamp 0 3001) { at_ false [] with now := 1000 }) =
    some 6 := by decide +kernel
/-- R31, R45: one step of the machine runs the first instruction after reset, an ADDI of 5. -/
theorem test_step_runs : tells (fun t => (t.ctx ⟨0, 0, 0⟩).g 5) (step (State.reset.withFetchWord 16 0x0D45)) = some 5 := by decide +kernel
/-- The first bytes of SHA-512 of the empty message (FIPS 180-4; R451 uses the function). -/
theorem test_sha512 : (sha512 []).take 4 = [0xCF, 0x83, 0xE1, 0x35] := by decide +kernel

/-- A vector register of 32-bit lanes. -/
def lanes32 (l : List Nat) : VWord := BitVec.ofNat 1024 (l.foldr (fun x v => x + 2 ^ 32 * v) 0)

/-- R96, worked numbers: VREDSUM.f32 of 1.0 and thirty-one times 2^−24. -/
theorem test_vredsum_tree : flies (exec (.vredsum { o0 with d := 2, a := 4 }) ((at_ false []).modMe fun k => { k with regs := { k.regs with v :=
    [(4, lanes32 (0x3F800000 :: List.replicate 31 0x33800000))] } })) = some [.vec 0x3F80000F] := by decide +kernel

/-- R437, worked plan: the band [1,610,000, 1,640,000] kHz bars steps 1, 7, 12 and 25; a request of 25 under zcap 25 runs at 24. -/
theorem test_worked_plan :
    (List.range 32).filter (barredBy [(1610000, 1640000)]) = [1, 7, 12, 25] ∧
    ({ Tile.reset with clk := { Tile.reset.clk with plan := [0x101, 1610000 + 1640000 * 2 ^ 32] }
                       cores := [(0, { Core.reset with freqReq := 25 })] } : Tile).target = 24 := by decide +kernel

/-! ## States that meet the hypotheses of the statements -/

/-- Context 0 of core 0 of tile 0, changed. -/
def me_ (f : Ctx → Ctx) : State := (at_ false []).modMe f

/-- Core 0 of tile 0, changed. -/
def core_ (f : Core → Core) : State := (at_ true []).modMyCore f

/-- Tile 0, live and in work, changed. -/
def tile_ (f : Tile → Tile) : State := (at_ true []).modTile 0 fun y => f { y with place := { y.place with live := true, working := true } }

/-- ArithmeticInstructionsGiveTheirResults, ProductsAndQuotientsGoInFlight, ArithmeticChangesOnlyItsDestination: every form may run; a
divisor that is zero, and one that is not. -/
theorem witness_arithmetic : (at_ false [(7, 1)]).mayRun (useForm dab) ∧ (at_ false [(7, 1)]).mayRun (useForm da) ∧
    (at_ false []).mayRun (.g [6, 7] [5]) ∧ (at_ false []).mayRun (.g [5, 6, 7] [5]) ∧ (at_ false []).mayRun (.g [] [63]) ∧
    (at_ false [(7, 1)]).rg 7 ≠ 0 ∧ (at_ false []).rg 7 = 0 := by decide +kernel

/-- ArithmeticChangesOnlyItsDestination: such an instruction answers a next state. -/
theorem witness_arithmetic_answers : ∃ t, exec (.add dab) (at_ false []) = .next t := ⟨_, rfl⟩

/-- StreamRegistersPopAndPush: g8 is bound to no stream, and v28 to none. -/
theorem witness_unbound : (at_ false []).myCore.binding 0 false 8 = none ∧ (at_ false []).myCore.binding 0 true 28 = none := by
  decide +kernel

/-- TransfersGoToTheirTargetsAndLinkOnly: both outcomes of a test, and equal and unequal operands. -/
theorem witness_transfers : (at_ false []).mayRun (.g [5, 6] []) ∧ (at_ false []).mayRun (.g [1] [1]) ∧ (at_ false []).mayRun .none ∧
    (at_ false []).rg 5 = 0 ∧ (at_ false [(5, 1)]).rg 5 ≠ 0 ∧ (at_ false [(5, 0xFFFFFFFFFFFFFFFF)]).rg 5 ≠ 0 := by decide +kernel

/-- NopAdvancesAndLoopsRunTheirBodies: no loop, with and without the marker; counts of 0, 1 and 2; four loops. -/
theorem witness_loops : (at_ false []).me.loops = [] ∧ (at_ false []).mayRun .none ∧ (at_ false [(5, 2)]).mayRun (.g [5] []) ∧
    (at_ false [(5, 2)]).rg 5 ≠ 0 ∧ (at_ false []).rg 5 = 0 ∧
    (me_ fun k => { k with loops := [⟨2, 8, 1⟩, ⟨2, 8, 1⟩, ⟨2, 8, 1⟩, ⟨2, 8, 1⟩] }).me.loops.length = 4 := by decide +kernel

/-- LocalAccessesFaultLoadStoreAndReadBack: addresses where its clauses meet. The last byte of T raises nothing and the next is outside; an
access of two bytes there leaves T; W's hole begins at 0x30000 and ends at 0x40000; an odd address is misaligned for two bytes. -/
theorem witness_local_accesses :
    let s := at_ false []
    s.accessFault .t 0xFFFFF 1 false false false = none ∧
    s.accessFault .t 0x100000 1 false false false = some (.spaceRange, infoM 0x100000 0 0 false) ∧
    s.accessFault .t 0xFFFFF 2 false false false = some (.windowCross, infoM 0xFFFFF 0 1 false) ∧
    s.accessFault .w 0x30000 1 false false false = some (.addrUnmapped, infoM 0x30000 3 0 false) ∧
    s.accessFault .w 0x40000 1 false false false = some (.spaceRange, infoM 0x40000 3 0 false) ∧
    s.accessFault .w 0x2FFFF 1 false false false = none ∧
    s.accessFault .a 1 2 true false true = some (.align, infoM 1 1 1 true) ∧
    s.accessFault .c 0 1 true true false = some (.bufferEngine, infoM 0 2 0 true) ∧
    s.mayRun (useLoad da) ∧ s.mayRun (useStore da) ∧ accSpace da = .t := by decide +kernel

/-- WindowAccessesConvertTheirElements: a window of 256 elements, its last element and the first beyond; a window with a bad format. -/
theorem witness_windows :
    let w := windowOf 0x0008300100100400
    w.fault = none ∧ 255 < w.length ∧ w.length ≤ 256 ∧ (windowOf 0x0000E00100000400).fault ≠ none ∧
    (at_ false []).mayRun (useLoad { o0 with d := 7, a := 6 }) ∧ (at_ false []).quoinFault 0 0 .a 0x4FF 1 true = none := by decide +kernel

/-- QuiresAreReachedArriveAndTurn: a quire that is not enabled, and one of two leaves of 16 bytes with every core a participant. -/
theorem witness_quires :
    let q : Quire := { (at_ false []).quire 0 0 with en := true, leaf := 16, depth := 2, dmax := 0 }
    let s := (at_ false []).modQuire 0 0 fun _ => q
    ((at_ false []).quire 0 0).en = false ∧ (s.quire 0 0).en = true ∧ 8 + 8 ≤ (s.quire 0 0).leaf ∧
    (s.quire 0 0).leaf < 9 + 8 ∧ (s.quire 0 0).leaf ≤ 16 ∧ -(((s.quire 0 0).depth : Int) - 1 - (s.quire 0 0).dmax) ≤ -1 ∧
    s.mayRun (useLoad da) := by decide +kernel

/-- AtomicsReadModifyAndWrite: an atomic may run in T, aligned, and traps misaligned. -/
theorem witness_atomics : (at_ false [(6, 8)]).mayRun (useAmo dab false) ∧ (at_ false [(6, 8)]).mayRun (useAmo dab true) ∧
    (at_ false [(6, 8)]).accessFault .t 8 8 true false true = none ∧
    (at_ false [(6, 4)]).accessFault .t 4 8 true false true = some (.align, infoM 4 0 3 true) := by decide +kernel

/-- AccessesToDAndTranslations: a load of D through a buffer that lacks the page, and through one that holds it. -/
theorem witness_translation :
    let e : Xentry := { page := 0, level := 0, entry := 0xF, gen := 0 }
    let s := (at_ false []).modXnode 0 fun x => { x with buf := [e] }
    accSpace { da with m := some 0x200 } = .d ∧ ((at_ false []).tile 0).eng.xnode.hit 0 false = none ∧
    ((s.tile 0).eng.xnode.hit 0 false).isSome ∧ (at_ false []).physical = false ∧ (at_ false []).dRange 0 8 = none := by decide +kernel

/-- FencesAndBarriersWait: nothing owed, a result owed; an idle barrier, one that waits for core 0 alone. -/
theorem witness_fences : (at_ false []).mayRun .none ∧ (at_ false []).me.flights = [] ∧ (at_ false []).outsideStores ⟨0, 0, 0⟩ = false ∧
    (me_ fun k => { k with flights := [⟨.g 9, .word 1, 0, 1⟩] }).me.flights ≠ [] ∧
    (me_ fun k => { k with flights := [⟨.g 9, .word 1, 0, 1⟩] }).mayRun .none ∧ (at_ false []).operationsOpen ⟨0, 0, 0⟩ = false ∧
    ((at_ false []).barrier 0 7).open_ = false ∧
    ((at_ false []).setBarrier 0 7 ⟨true, 0xF, 0xE⟩ |>.barrier 0 7) = ⟨true, 0xF, 0xE⟩ := by decide +kernel

/-- EventWaitsClassRequestTimeAndSleep: a queue with a record and one without; deadlines that are over and to come; classes at the cap and
above it. -/
theorem witness_events : (at_ false []).mayRun (useEvent { o0 with d := 4 }) ∧ (at_ false []).myCore.evq.ready = [] ∧
    (core_ fun k => { k with evq := { k.evq with ready := [⟨1, 0, 0, 0, 0⟩] } }).myCore.evq.ready ≠ [] ∧
    (at_ false []).me.sys.cap.toNat = 1 ∧ (at_ false []).rtime 0 = 0 ∧ (at_ false [(5, 1)]).mayRun (.g [5] []) := by decide +kernel

/-- SystemRegistersAreReadAndWritten: both privileges. -/
theorem witness_system : (at_ true []).mayRun (.g [] [5]) ∧ (at_ true []).me.trap.ts.priv = true ∧ (at_ false []).mayRun (.g [5] []) ∧
    (at_ false []).me.trap.ts.priv = false := by decide +kernel

/-- TrapsAndBreakpointsEnterTheHandler, TrapsWaitForResultsAndDoubleTrapsHold: traps on and off, results in flight or none. -/
theorem witness_traps : (at_ false []).me.status = .running ∧ (at_ false []).me.trap.ts.te = true ∧ (at_ false []).me.flights = [] ∧
    ((at_ false []).tile 0).gangOf 0 0 = none ∧
    (me_ fun k => { k with trap := { k.trap with ts := { k.trap.ts with te := false } } }).me.trap.ts.te = false ∧
    (me_ fun k => { k with flights := [⟨.g 9, .word 1, 0, 1⟩] }).me.status = .running := by decide +kernel

/-- EretReturnsAndEndhFrees: an entry that returns, one that frees; a context with no handler, no stream unit and no result. -/
theorem witness_returns : (at_ true []).me.trap.ts.nr = false ∧ (at_ true []).me.trap.ts.alloc = false ∧
    (me_ fun k => { k with trap := { k.trap with ts := { k.trap.ts with nr := true, priv := true } } }).me.trap.ts.nr = true ∧
    (at_ true []).holdsCoord ⟨0, 0, 0⟩ = false ∧ (at_ true []).unitsOf ⟨0, 0, 0⟩ = [] ∧ (at_ true []).me.handler = .none := by decide +kernel

/-- GangsFormExecuteTogetherAndDissolve: nobody waits; the pair's other core waits for the same form; a gang of two. -/
theorem witness_gangs :
    let w := (at_ false []).modCtx ⟨0, 1, 3⟩ fun k => { k with status := .waiting (.gang false) }
    let g : Gang := ⟨[(0, 0), (1, 3)]⟩
    let s := (at_ false []).modTile 0 fun y => { y with eng := { y.eng with gangs := [g] } }
    (at_ false []).gangWaiter 0 1 = none ∧ w.gangWaiter 0 1 = some (3, false) ∧ w.gangWaiter 0 0 = none ∧
    ((w.tile 0).inGang 0) = false ∧ (s.tile 0).gangOf 0 0 = some g ∧ (g.members.map Prod.fst).Nodup ∧
    (s.ctx ⟨0, 1, 3⟩).blocked (.g [] [5]) = false ∧ s.gate ⟨0, 1, 3⟩ (.g [] [5]) = none := by decide +kernel

/-- Operands of a vector instruction: destination 2, sources 4 and 5, under the modifier `m`. -/
def vop (m : BitVec 10) : Opnd := { o0 with m := some m, r := true, d := 2, a := 4, b := 5 }

/-- Context 0 of core 0 with vector, mask and general registers set. -/
def vat (gs : List (Nat × Word)) (vs : List (Nat × VWord)) (ks : List (Nat × KWord)) : State :=
  (at_ false []).modMe fun k => { k with regs := { g := gs, v := vs, k := ks } }

/-- The modifier that names the element format `fmt` and the mask register `k`. -/
def modOf (fmt k : Nat) : BitVec 10 := BitVec.ofNat 10 (fmt * 64 + k * 8)

/-- VectorArithmeticAndFusedGiveTheirLanes, VectorMovesAndMasksGiveTheirLanes: the registers are readable; a mask with only its last lane
active; indexes at the last lane and beyond it. -/
theorem witness_vectors :
    let s := vat [(5, 31)] [] [(1, (1 : KWord) <<< 124)]
    let o := vop (modOf 0 1)
    s.mayRun (useV2 o) ∧ s.mayRun (useV1 o) ∧ s.mayRun (useV3 o) ∧ s.mayRun (useV o [o.a.toNat, o.b.toNat] [o.d.toNat]) ∧
    s.mayRun ⟨[o.a.toNat], [], [], [o.d.toNat], useMask o, []⟩ ∧ s.mayRun ⟨[o.b.toNat], [], [o.a.toNat], [o.d.toNat], useMask o, []⟩ ∧
    s.mayRun ⟨[o.b.toNat], [o.d.toNat], [o.a.toNat], [], [], []⟩ ∧ s.mayRun (useVcmp o) ∧ s.mayRun (useK [4, 5] o) ∧ s.mayRun (useKg o) ∧
    s.mayRun ⟨[o.a.toNat], [], [], [], [], [o.d.toNat]⟩ ∧
    s.lives o 32 31 = true ∧ s.lives o 32 30 = false ∧ (s.rg 5).toNat < 32 ∧ ¬((vat [(5, 32)] [] []).rg 5).toNat < 32 := by decide +kernel

/-- VectorMovesAndMasksGiveTheirLanes: a permutation within the register, and one with an index of 32 in an active lane. -/
theorem witness_permutations :
    let o := vop (modOf 0 0)
    (∀ i, i < 32 → lane 32 ((vat [] [] []).rv 5).toNat i < 32) ∧ (vat [] [(5, 32)] []).lives o 32 0 = true ∧
    32 ≤ lane 32 ((vat [] [(5, 32)] []).rv 5).toNat 0 := by decide +kernel

/-- ConversionsReductionsAndDotProducts: float and integer formats, with one lane active and with none. -/
theorem witness_reductions :
    laneBits (o0.mf 9 6) = 32 ∧ (vop (modOf 0 0)).mf 9 6 ≤ 2 ∧ intShape ((vop (modOf 7 1)).mf 9 6) ≠ none ∧
    (∀ i, i < 32 → (vat [] [] []).lives (vop (modOf 7 1)) 32 i = false) ∧ (vat [] [] [(1, 1)]).lives (vop (modOf 7 1)) 32 0 = true ∧
    (vat [] [] []).mayRun (useV1 (vop (modOf 7 1))) ∧ (vat [] [] []).mayRun (useV3 (vop (modOf 7 1))) := by decide +kernel

/-- VectorAccessesReachTheirLanes: a load of 32 lanes that ends with T, one that leaves it in its last lane, and one with no active lane. -/
theorem witness_vector_accesses :
    let o := vop (modOf 0 1)
    let s (g : Word) (k : KWord) := vat [(4, g)] [] [(1, k)]
    let bare : Use := ⟨[], [], [], [], useMask o, []⟩
    o.mf 9 6 ≠ 13 ∧ o.fx.toNat % 8 ≤ 1 ∧ (s 0 0).mayRun bare ∧ (∀ i, i < 32 → (s 0 0).lives o 32 i = false) ∧
    (s 0xFFFFC 1).lives o 32 0 = true ∧ (s 0xFFFFC 1).me.blocked (useVld o [4] []) = false ∧
    (s 0xFFFFC 1).gate (s 0xFFFFC 1).cur (useVld o [4] []) = none ∧ 0xFFFFC + 4 ≤ Space.t.size ∧
    (s 0xFFFFC 1).quoinFault 0 0 .t 0xFFFFC 4 true = none ∧ (s 0xFFFFC 1).badLocal 0 0 .t 0 0xFFFFC 4 = none ∧
    (s 0xFFFFC 0x11).lives o 32 1 = true ∧ Space.t.size ≤ 0xFFFFC + 4 := by decide +kernel

/-- WindowAccessesConvertTheirElements: nibbles, the last in T. -/
theorem witness_nibbles :
    let o := vop (modOf 13 1)
    let s := vat [(4, 0xFFFFF)] [] [(1, 1)]
    o.mf 9 6 = 13 ∧ s.lives o 4 0 = true ∧ s.lives o 4 1 = true ∧ s.lives o 4 2 = false ∧ (2 * 0xFFFFF + 1) / 2 < Space.t.size := by
  decide +kernel

/-- SparseCoordinatesAndAccumulator: coordinates that rise and that do not; an accumulator of the right format and of the other, with no
room and with room. -/
theorem witness_sparse :
    let o := vop (modOf 8 1)
    let full : Sparse (BitVec 32) := (List.range 1024).map fun i => (i, 0)
    let s (e : Sparse (BitVec 32)) := (vat [] [(4, 0x7D0)] [(1, 1)]).modSpa fun _ => ⟨false, e⟩
    16 ≤ laneBits (o.mf 9 6) ∧ (∀ i, i < 32 → (vat [] [] []).lives o 32 i = false) ∧
    lane 32 (BitVec.ofNat 1024 0x100000002 : VWord).toNat 1 < lane 32 (BitVec.ofNat 1024 0x100000002 : VWord).toNat 0 ∧
    (s []).mayRun (useV o [4, 5] []) ∧ (s []).myCore.spa.isS32 = false ∧ (vop (modOf 7 0)).mf 9 6 = 7 ∧ (vop (modOf 0 1)).mf 9 6 ≠ 7 ∧
    (s full).myCore.spa.entries.length = 1024 ∧ ((s full).myCore.spa.entries.find 0x7D0).isNone ∧
    (s []).mayRun ⟨[], [4], [], [2, 3], [], []⟩ := by decide +kernel

/-- VectorInstructionsChangeOnlyFlagsAndTheirResult: such an instruction answers a next state that is no trap. -/
theorem witness_vector_answers : tells (fun t => t.me.trap.cause.toNat) (exec (.vadd (vop (modOf 0 0))) (vat [] [] [])) = some 0 := by
  decide +kernel

/-- MatrixCommandsAreQueuedAndAwaited: a descriptor with no fault, one with a fault; a full queue and one that is not; an identifier that is
outstanding, one past and one never issued; weights of which none is zero, and one is. -/
theorem witness_matrix :
    let m (a : Word) : MCmd := { ident := 1, op := .mclr, mod := 0, dd := 0, da := a, db := 0, ctx := 0, live := true, cancel := false, bkey := 0, rnd := 1 }
    let q (n : Nat) : State := (at_ true []).modMq 0 0 fun q => { q with cmds := List.replicate n (m 0), next := 1 + BitVec.ofNat 32 n }
    (m 0x0000000000000000).bad.isSome ∧ (q 7).myCore.mq.cmds.length < 8 ∧ 8 ≤ (q 8).myCore.mq.cmds.length ∧
    (q 0).mayRun (.g [6] []) ∧ (q 0).mayRun (useMma dab) ∧ (q 1).myCore.mq.done = 1 ∧ (q 1).myCore.mq.next = 2 ∧
    0 ∉ (List.range 4).map (fun i => ((0x01010101 : Word).extractLsb' (8 * i) 8).toNat) ∧
    0 ∈ (List.range 4).map (fun i => ((0x01010001 : Word).extractLsb' (8 * i) 8).toNat) ∧ (q 0).me.trap.ts.priv = true ∧
    (at_ false []).me.trap.ts.priv = false := by decide +kernel

/-- CopyTransfersAreQueued: shadow registers that are right, and the untouched ones, which are not; a channel with room and one without. -/
theorem witness_copies :
    let tr : Transfer := { ident := 1, snap := [], rnd := 1, bkey := 0, by_ := ⟨0, 0⟩, flags := 0, voided := false, cancel := false, bytes := 0 }
    let s (n : Nat) : State := (at_ false []).modChannel 0 6 fun k => { k with queue := List.replicate n tr, next := 1 + BitVec.ofNat 32 n }
    (s 0).mayRun (.g [] [5]) ∧ (s 7).mayRun (.g [5] []) ∧ ((s 7).channel 0 6).queue.length < 8 ∧ 8 ≤ ((s 8).channel 0 6).queue.length ∧
    ((s 1).channel 0 6).done = 1 ∧ ((s 1).channel 0 6).next = 2 := by decide +kernel

/-- CopyTransfersAreQueued, MatrixCommandsAreQueuedAndAwaited: shadow registers in order, and ones with a reserved bit; an MWLOAD in order. -/
theorem witness_commands :
    let s := at_ false [(5, 1 <<< 27), (6, 0)]
    let p := planOf (s.channel 0 6).shadow
    badShadow (s.channel 0 6).shadow (fun _ => false) = [] ∧ badShadow [(0, 0x8000000000000000)] (fun _ => false) = [0] ∧
    (p.src.fault p.lens p.total false).or (p.dst.fault p.lens p.total true) = none ∧ p.overlap = false ∧ p.ev = false ∧ p.quoin = false ∧
    (let m : MCmd := { ident := 1, op := .mwload, mod := 0, dd := 128 * 2 ^ 20, da := 0, db := 0, ctx := 0, live := true, cancel := false
                       bkey := 0, rnd := 1 }
     m.bad = none ∧ m.tag = false ∧ m.rangeFault = none ∧ m.event = false ∧ m.quoin = false) := by decide +kernel

/-- A binding of context 0 to a pattern of two words. -/
def bind_ (write : Bool) (owner : Nat) (buf : List StreamItem) : Binding :=
  { newBinding owner write (patternOf (2 * 2 ^ 64)) 0 1 with buf := buf }

/-- The unit of g8 bound so. -/
def bound_ (b : Binding) : State := (core_ fun k => { k with streams := [(0, { bind := some b, nbind := 1, cancelled := [] })] })

/-- StreamsBindEndReportAndSkip: a free unit with a descriptor in order, with a bad one, outside T and misaligned; a unit of another
context. -/
theorem witness_bindings :
    let s := at_ false [(6, 0x1000)]
    let v := s.readLocal 0 0 .t noKey 0x1000 64
    let p := patternOf v
    s.mayRun (.g [6] []) ∧ (s.myCore.stream 0).bind = none ∧ 0x1000 + 64 ≤ 0x100000 ∧ s.badLocal 0 0 .t noKey 0x1000 64 = none ∧
    patternCheck v false = none ∧ patternCheck (2 ^ 63) false = some 0 ∧ p.fault false false = none ∧ p.ev = false ∧ p.quoin = false ∧
    0x100000 ≤ ((at_ false [(6, 0x100000)]).rg 6).toNat ∧ ((at_ false [(6, 0xFFFC0)]).rg 6).toNat + 64 ≤ 0x100000 ∧
    ((bound_ (bind_ false 1 [])).myCore.stream 0).bind.map (·.owner) = some 1 := by decide +kernel

/-- StreamsBindEndReportAndSkip: no binding; a read binding with an element, a stop token, the terminal one and nothing at its head; a write
binding. -/
theorem witness_stream_heads :
    (at_ false []).myCore.binding 0 false 8 = none ∧ (bound_ (bind_ false 0 [])).myCore.binding 0 false 8 = some (bind_ false 0 []) ∧
    (bind_ false 0 []).buf = [] ∧ (bind_ false 0 [.elem 1, .stop 0]).buf = [.elem 1] ++ .stop 0 :: [] ∧
    (bind_ false 0 [.stop 3]).buf = [] ++ .stop 3 :: [] ∧ (bind_ false 0 [.terminal]).buf = [.terminal] ∧
    (bound_ (bind_ true 0 [])).myCore.binding 0 false 8 = some (bind_ true 0 []) ∧ (bind_ true 0 []).write = true ∧
    (bound_ (bind_ true 0 [])).canUnbind 0 0 0 (bind_ true 0 []) = true ∧
    (bound_ { bind_ true 0 [] with open_ := [⟨1, none⟩] }).canUnbind 0 0 0 { bind_ true 0 [] with open_ := [⟨1, none⟩] } = false ∧
    (bound_ (bind_ false 0 [])).mayRun .none ∧ (bound_ (bind_ false 0 [])).mayRun (.g [] [5]) := by decide +kernel

/-- A piece of walk 1 of one dimension and four coordinates. -/
def piece_ : Piece :=
  { walk := 1, sigAddr := 0x1000, sig := signatureOf (1 + 2 ^ 8 + 4 * 2 ^ 64 + 2 ^ 192), total := 4, thief := false, home := ⟨0, 0⟩, next := 0, stop := 4
    retired := 0, freed := 0, flying := [], ecc := none }

/-- WalkerInstructionsOpenAndClaim: a signature in order and a bad one; a free walker, one with a piece, one with four open walks; an answer to
take, a coordinate to take and nothing to take. -/
theorem witness_walkers :
    let v := 1 + 2 ^ 8 + 4 * 2 ^ 64 + 2 ^ 192
    let w : OpenWalk := ⟨1, 4, 0, 0, false, ⟨0, 0⟩, none⟩
    signatureCheck v (fun _ => false) = none ∧ (signatureOf v).total = 4 ∧ (signatureOf v).ev = false ∧ signatureCheck 0 (fun _ => false) = some 0 ∧
    (at_ false [(6, 0x1000)]).mayRun (.g [6] [5]) ∧ (at_ false []).me.isItem = false ∧
    ((at_ false []).walker 0 0).piece = none ∧ ((at_ false []).walker 0 0).open_.length < 4 ∧
    (((at_ false []).modWalker 0 0 fun x => { x with open_ := [w, w, w, w] }).walker 0 0).open_.length = 4 ∧
    (((at_ false []).modWalker 0 0 fun x => { x with answer := [(0, 5)] }).walker 0 0).answer.find 0 = some 5 ∧
    (((at_ false []).modWalker 0 0 fun x => { x with piece := some piece_ }).walker 0 0).piece = some piece_ ∧
    ((at_ false []).walker 0 0).answer.find 0 = none ∧ (at_ false []).holdsCoord ⟨0, 0, 0⟩ = false ∧
    Tag.kind ((at_ false [(6, 0)]).rg 6 |>.setWidth 24) ≠ 1 ∧
    (∃ x ∈ (((at_ false []).modWalker 0 0 fun x => { x with open_ := [w] }).walker 0 0).open_, x.walk = 1) := by decide +kernel

/-- Port 6 of tile 0 with an arc, outwards with slots and inwards with a queue. -/
def arc_ (slots : Nat) (queue : List Tok) : State :=
  ((at_ false [(5, 3)]).modOut 0 6 fun p => { p with arc := true, slots := slots }).modIn 0 6 fun d => { d with arc := true, inv := 4, queue := queue }

/-- A token of a kind. -/
def tok_ (k : TokKind) : Tok :=
  { kind := k, payload := 7, len := 1, stag := 0, sport := 0, seq := 0, status := 0, row := 0, dreq := none, via := none }

/-- SendsPutOneTokenOnTheirArc: an arc with a slot, one without, and none; an acknowledgement owed and none; levels 3 and 4; the last 128 bytes
of T and an address beyond them. -/
theorem witness_sends :
    ((arc_ 1 []).outPort 0 6).arc = true ∧ ((arc_ 1 []).outPort 0 6).slots ≠ 0 ∧ ((arc_ 1 []).outPort 0 6).seamed = false ∧
    ((arc_ 0 []).outPort 0 6).slots = 0 ∧ ((at_ false []).outPort 0 6).arc = false ∧ (arc_ 1 []).me.acks = 0 ∧
    (me_ fun k => { k with acks := 1 }).me.acks ≠ 0 ∧ (arc_ 1 []).mayRun (.g [5] []) ∧ (arc_ 1 []).mayRun ⟨[], [], [5], [], [], []⟩ ∧
    ((arc_ 1 []).rg 5).toNat < 4 ∧ (0xFFF80 : Nat) + 128 ≤ 0x100000 ∧ 0xFFF80 % 16 = 0 ∧
    (at_ false []).quoinFault 0 0 .t 0xFFF80 128 false = none ∧ (at_ false []).badLocal 0 0 .t noKey 0xFFF80 128 = none := by decide +kernel

/-- ReceivesTakeTheHeadOfTheirPort: an empty port, a data token, a colophon of a level below the port's, a sealed port, a sticky port in and
outside a firing, a resident token. -/
theorem witness_receives :
    let d (s : State) : InPort := s.inPort 0 6
    let f : Firing := { core := 0, ctx := 0, entry := 0, group := [6], consumed := [], residents := [6], rebinds := [] }
    let sticky : State := (arc_ 1 [tok_ .data]).modIn 0 6 fun d => { d with sticky := 2, uses := some 1 }
    (d (arc_ 1 [])).queue = [] ∧ (d (arc_ 1 [tok_ .data])).queue = tok_ .data :: [] ∧ (tok_ .data).status = 0 ∧
    (d (arc_ 1 [tok_ .data])).sealed_ = none ∧ (d (arc_ 1 [])).sticky = 0 ∧ (d (arc_ 1 [])).uses = none ∧
    (tok_ (.colophon 3)).kind = .colophon 3 ∧ 3 < (d (arc_ 1 [])).inv ∧
    (∀ q, q < 16 → ((at_ false [(5, 0x40)]).rg 5).getLsbD q = true → ((arc_ 1 []).outPort 0 q).arc = true) ∧
    (d ((arc_ 1 [tok_ .data]).modIn 0 6 fun d => { d with sealed_ := some 2 })).sealed_ = some 2 ∧
    (d sticky).sticky ≠ 0 ∧ sticky.firingOf sticky.cur = none ∧
    ((sticky.modPort 0 fun e => { e with firing := some f }).firingOf sticky.cur) = some f ∧ (d sticky).uses = some 1 ∧
    (arc_ 1 []).myCore.binding 0 true 5 = none ∧ (arc_ 1 []).mayRun (.g [] [5]) := by decide +kernel

/-- PortsAreBoundAndRead: an even entry, an odd one, and one that unbinds; a port with an arc and one without; no firing, and one. -/
theorem witness_ports :
    let f : Firing := { core := 0, ctx := 0, entry := 0, group := [6], consumed := [], residents := [], rebinds := [] }
    ((at_ false [(5, 0x100)]).rg 5).getLsbD 17 = false ∧ ((at_ false [(5, 0x100)]).rg 5).getLsbD 0 = false ∧
    ((at_ false [(5, 0x101)]).rg 5).getLsbD 0 = true ∧ ((at_ false [(5, 0x20000)]).rg 5).getLsbD 17 = true ∧
    ((arc_ 1 []).inPort 0 6).arc = true ∧ ((at_ false []).inPort 0 6).arc = false ∧ ((arc_ 1 []).inPort 0 6).uses = none ∧
    (arc_ 1 []).myTile.port.firing = none ∧ ((arc_ 1 []).modPort 0 fun e => { e with firing := some f }).myTile.port.firing = some f ∧
    ((arc_ 1 []).inPort 0 6).head = none ∧ (((arc_ 1 [tok_ .data]).inPort 0 6).head).isSome ∧
    ((arc_ 1 []).inPort 0 6).uses.getD 0 < 256 ∧ ((arc_ 1 []).inPort 0 6).queue.length < 16 := by decide +kernel

/-- MailIsSentRepliedAndAwaited: a tag bound to a tile and one that is not; a mail open and none; a reply owed and none; a notice, a listing and
neither. -/
theorem witness_mails :
    let s : State := { at_ false [(6, 0x040000), (7, 0x1000)] with tags := [(0x040000, 0)] }
    let r : ReplyOwed := ⟨0, 0, 0, 0, 1, false⟩
    s.mayRun (.g [6, 7] [5]) ∧ s.mayRun (.g [6] [5]) ∧ s.tileOf 0x040000 = some 0 ∧ s.tileOf 0x040001 = none ∧ s.me.mailOpen = false ∧
    s.me.acks = 0 ∧ s.me.sender = { listed := none, reserved := none, notice := none, turned := none } ∧ s.replyOf s.cur = none ∧
    (s.modPort 0 fun e => { e with replies := [r] }).replyOf s.cur = some r ∧ s.sameTile 0x040000 0x040000 = true ∧
    (me_ fun k => { k with flights := [⟨.g 5, .answer 0 1, 0, 1⟩] }).me.mailOpen = true ∧
    (me_ fun k => { k with sender := { k.sender with notice := some 0x040000 } }).me.sender.notice = some 0x040000 ∧
    (me_ fun k => { k with sender := { k.sender with listed := some 0x040000 } }).me.sender.listed = some 0x040000 ∧
    s.badLocal 0 0 .t noKey 0x1000 128 = none ∧ s.quoinFault 0 0 .t 0x1000 128 false = none := by decide +kernel

/-- AccessesToDAndTranslations: an arc to an actor, one elsewhere and none; room for the replies and none; a request that is right. -/
theorem witness_dram_requests :
    let act : Tag := BitVec.ofNat 24 (3 * 2 ^ 21)
    let s (g : Word) : State := { at_ false [(7, g)] with tags := [(0x040000, 0)] }
    let p (slots : Nat) : State := ((at_ false []).modOut 0 0 fun p => { p with arc := true, slots := slots, dtag := act })
    Tag.kind act = 3 ∧ ((p 8).outPort 0 0).arc = true ∧ ((at_ false []).outPort 0 0).arc = false ∧
    replyCount (dreqDesc 0).op (dreqDesc 0).x ≤ ((p 8).outPort 0 0).slots ∧ ((p 8).outPort 0 0).seamed = false ∧
    (dreqDesc 0).addrFault ((dreqDesc 0).addrs 0 0) = none ∧ (dreqDesc 0).op = 0 ∧ (s 0).mayRun (.g [6, 7, 5] []) ∧
    (s 0).tileOf 0x040000 = some 0 ∧
    (0x10 : Word).extractLsb' 4 28 ≠ 0 ∧ (0x7 : Word).extractLsb' 4 28 = 0 ∧ (s 0).me.trap.ts.priv = false ∧
    (s 0).myTile.eng.xnode.shootOf (s 0).cur = none ∧
    ((s 0).modXnode 0 fun x => { x with shooting := [(0, 0, [])] }).myTile.eng.xnode.shootOf (s 0).cur = some [] ∧
    ((s 0).modXnode 0 fun x => { x with shooting := [(0, 0, [1])] }).myTile.eng.xnode.shootOf (s 0).cur = some [1] := by decide +kernel

/-- PrivilegeIsCheckedAndContextsAreSaved: both privileges; a context that is free, one that is ready, one with a result in flight and the own
one; the last area in T, and one beyond. -/
theorem witness_contexts :
    let s (f : Ctx → Ctx) : State := (at_ true []).modCtx ⟨0, 1, 2⟩ f
    (at_ true []).mayRun (.g [6, 7] [5]) ∧ (at_ true []).me.trap.ts.priv = true ∧ (at_ false []).mayRun (.g [6, 7] []) ∧
    (0xFEC00 : Nat) + 5120 = 0x100000 ∧ 0xFEC00 % 128 = 0 ∧ (at_ true []).quoinFault 0 0 .t 0xFEC00 5120 true = none ∧
    (at_ true []).badLocal 0 0 .t noKey 0xFEC00 5120 = none ∧ ((at_ true []).ctx ⟨0, 1, 2⟩).status = .free ∧
    ((s fun k => { k with status := .ready }).ctx ⟨0, 1, 2⟩).status ≠ .free ∧ ((s id).ctx ⟨0, 1, 2⟩).flights = [] ∧
    ((s fun k => { k with flights := [⟨.g 9, .word 1, 0, 1⟩] }).ctx ⟨0, 1, 2⟩).flights ≠ [] ∧ ((s id).ctx ⟨0, 1, 2⟩).pend = none ∧
    (s id).outsideStores ⟨0, 1, 2⟩ = false ∧ (s id).myTile.port.reservations = [] := by decide +kernel

/-- EngineStateIsReadAndWritten: a unit held and one not; a word within its item; a quoin entry and a free one; key operands right and wrong; the
keys locked and not. -/
theorem witness_engine_state :
    let s : State := (at_ true []).modEng 0 fun e => { e with holds := [256 + 2], quoins := [(3, ⟨.t, 0, 0x100, 16, true, 0, 1, 2, 9⟩)] }
    s.me.trap.ts.priv = true ∧ s.mayRun (.g [6] [5]) ∧ s.mayRun (.g [6, 7] []) ∧ s.unitHeld 0 1 2 = true ∧ s.unitHeld 0 1 3 = false ∧
    (s.itemWords 0 1 2 0).isSome ∧ (s.itemWords 0 1 2 0).elim false (fun ws => decide (0 < ws.length)) = true ∧
    s.itemWords 0 1 2 0xFE = none ∧ s.myTile.eng.quoins.find 4 = none ∧ (s.myTile.eng.quoins.find 3).isSome ∧
    s.plat.root.keysLocked = false ∧ s.keyBusy 5 95 = false ∧ s.me.granted = false ∧
    (95 < 96 ∧ ¬(96 ≤ 127 ∧ 127 ≠ 127) ∧ (96 ≤ 96 ∧ 96 ≠ 127)) := by decide +kernel

/-- GalleysAreMappedSavedAndUnmapped: a slot mapped and one not; a control block in order and a bad one; a galley enabled. -/
theorem witness_galleys :
    let s : State := (at_ true []).modSlot 5 fun k => { k with mapped := true, galley := 9 }
    s.mayRun (.g [6] [5]) ∧ s.mayRun (.g [6, 7] [5]) ∧ (s.slotAt 5).mapped = true ∧ (s.slotAt 6).mapped = false ∧
    (s.slotAt 5).pendRec = none ∧ s.me.acks = 0 ∧ s.ageGalleys.slotRecords 5 = [] ∧
    blockBad (1 + 2 ^ 8 + 4 * 2 ^ 128) 0 = false ∧ blockBad 0 0 = true ∧ (s.ageGalleys.galley 9).mapped = false ∧
    ((s.modGalley 9 fun e => { e with en := true }).ageGalleys.galley 9).en = true ∧ s.galleys.tableBase % 128 = 0 := by decide +kernel

/-- FormesLoadSwapAndTagsBind: a block whose magic is wrong, aligned and not; a chase with no placement loaded. -/
theorem witness_formes :
    let s := at_ true [(6, 0x100)]
    s.mayRun (.g [6, 7] [5]) ∧ s.mayRun (.g [6] [5]) ∧ s.me.trap.ts.priv = true ∧ ((s.rg 6).toNat % 256 = 0) ∧
    ((at_ true [(6, 0x101)]).rg 6).toNat % 256 ≠ 0 ∧ s.ccbValid 0x100 = false ∧ s.chaseOfTag 0x040000 = none ∧
    s.migrating 0 = false ∧ s.memberOf 0 0x200000 = none ∧
    barredBy [] 0 = false ∧ (∀ n, n < 32 → barredBy [(0, 4294967295)] n = true) := by decide +kernel

/-- A state whose next step is an issue of core 0 of tile 0, with a word at the pc of its context 0. -/
def issue_ (f : Ctx → Ctx) (ws : List (BitVec 16)) : State := ((tile_ id).modMe f).placeWords ws

/-- StepRunsTheDecodedInstruction: MOVI g4, −40000 at the pc of a context that is to issue; and the step answers a next state. -/
theorem witness_step :
    let s := issue_ id [0x73FF, 0x718F, 0x1100]
    let s1 := s.popDue.settle 0
    s.model.agenda.head? = some (.issue 0 0) ∧ s.popDue.coreRuns 0 0 = true ∧ (s1.serveNotice 0 0).isNone ∧ s1.next 0 0 = some ⟨0, 0, 0⟩ ∧
    (s1.ctx ⟨0, 0, 0⟩).spent = false ∧ (s1.ctx ⟨0, 0, 0⟩).fetchFault = none ∧
    read (s1.wordsAt ⟨0, 0, 0⟩) = some (.movi { o0 with ni := 2, d := 4, imm := -40000 }, 3) ∧ (s1.ctx ⟨0, 0, 0⟩).words + 3 ≤ 32 ∧
    tells (fun t => (t.ctx ⟨0, 0, 0⟩).g 4) (step s) = some 0xFFFFFFFFFFFF63C0 := by decide +kernel

/-- NoticesFetchFaultsAndStallsComeFirst: an odd pc, the last word of X and the first address beyond it; a second modifier, an undefined code;
a group of 32 words and one of 31; a register whose result is in flight. -/
theorem witness_fetch :
    (issue_ (fun k => { k with pc := 1 }) []).me.pc.toNat % 2 = 1 ∧ 0x1FFFE < 0x20000 ∧
    refused ((issue_ id [0x7C80, 0x7C80]).wordsAt ⟨0, 0, 0⟩) = 1 ∧
    (issue_ (fun k => { k with words := 32 }) [0x73FF]).me.words = 32 ∧ 32 < 32 + 1 ∧ ¬32 < 31 + 1 ∧
    (issue_ (fun k => { k with flights := [⟨.g 9, .word 1, 0, 1⟩] }) []).me.blocked (.g [9] []) = true ∧
    (issue_ id []).myTile.gangOf 0 0 = none := by decide +kernel

/-- DecodeOfEncodeIsTheInstruction, StepKeepsMemoriesCanonical: a well-formed instruction with an encoding; a state whose memories are
canonical is State.reset, of which a step answers a next state. -/
theorem witness_whole_machine : (Instr.add dab).enc.isSome = true ∧ (Instr.add dab).wf = true ∧ tells (fun _ => 0) (step State.reset) = some 0 := by
  decide +kernel

/-- CoresWakeReturnSwitchAndTakeNotices: a sleep that is over, a result to return, a group that ends, a context about to age, a trap to enter, a
budget spent, a timer that is due and one that is off. -/
theorem witness_core_steps :
    (me_ fun k => { k with status := .waiting (.sleep (some 0)) }).me.waits = some (.sleep (some 0)) ∧ 0 ≤ (at_ false []).rtime 0 ∧
    (me_ fun k => { k with flights := [⟨.g 9, .word 1, 0, 1⟩] }).me.flights[0]? = some ⟨.g 9, .word 1, 0, 1⟩ ∧
    (me_ fun k => { k with status := .ready, waited := 65535 }).me.waited = 65535 ∧
    (me_ fun k => { k with pend := some ⟨.break, 0, 0, 1, false, false⟩ }).me.pend.isSome = true ∧ (at_ false []).me.trap.ts.te = true ∧
    (at_ false []).me.sys.hbudget = 0 ∧ (at_ false []).me.pend = none ∧
    (core_ fun k => { k with ktimer := 0x8000000000000000 }).myCore.ktimer.getLsbD 63 = true ∧
    (0x8000000000000000 : Word).toNat % 2 ^ 63 ≤ (at_ true []).rtime 0 ∧ (at_ true []).myCore.ktimer.getLsbD 63 = false := by decide +kernel

/-- CoresWakeReturnSwitchAndTakeNotices: a notice that is due, with a context to take it and with only free ones. -/
theorem witness_notices :
    let f (k : Core) : Core := { k with npend := 1 <<< 63 ||| 0x7FFFF, tvec := 0x100 }
    let s := (issue_ id []).modMyCore f
    let u := ((issue_ id []).modMe fun k => { k with status := .free }).modMyCore f
    (s.settle 0).next 0 0 = some ⟨0, 0, 0⟩ ∧ ((s.settle 0).core 0 0).dueNotice.isSome ∧ ((s.settle 0).ctx ⟨0, 0, 0⟩).flights = [] ∧
    s.coreRuns 0 0 = true ∧ (u.settle 0).next 0 0 = none ∧ (u.settle 0).freeCtxs 0 0 ≠ [] ∧
    ((u.settle 0).core 0 0).dueNotice.isSome := by decide +kernel

/-- MatrixCopyAndStreamStepsPerform: a transfer of nothing at the head of a channel, one that has ended, and a read binding with one element
left and with none. -/
theorem witness_engine_steps :
    let tr : Transfer := { ident := 1, snap := [], rnd := 1, bkey := 0, by_ := ⟨0, 0⟩, flags := 0, voided := false, cancel := false, bytes := 0 }
    let s : State := (at_ true []).modChannel 0 3 fun k => { k with queue := [tr], ending := some ⟨0, 0⟩ }
    let b := bind_ false 0 []
    (s.channel 0 3).queue = tr :: [] ∧ ((s.channel 0 3).outcome).isSome ∧ s.copyDue 0 3 = true ∧
    (bound_ b).bindingAt 0 0 0 = some b ∧ b.reads false = true ∧ b.pat.seg = false ∧ b.pat.total = 2 ∧ b.next < b.pat.total ∧
    ({ b with next := 2 } : Binding).reads false = true ∧ ({ b with next := 2 } : Binding).pat.total ≤ 2 := by decide +kernel

/-- ControlItemsHoldResumeAbandonAndCancel: a channel and a matrix queue with a fault that holds them. -/
theorem witness_control_items :
    let s : State := (at_ true []).modChannel 0 7 fun k => { k with fault := some (0, .xlateMiss) }
    let y : State := (at_ true []).modMq 0 3 fun q => { q with fault := some (0, .xlateMiss) }
    ((s.applyWritten 0 1 7).channel 0 7).fault = some (0, .xlateMiss) ∧ ((y.applyWritten 0 5 3).core 0 3).mq.fault = some (0, .xlateMiss) := by
  decide +kernel

/-- WalkersDispatchStealAndReport: a piece to dispatch from; a claim with and without an index left; an answer, a notice and a report in
flight. -/
theorem witness_walker_steps :
    let s (p : Piece) (cl : List (Nat × Bool)) (net : List Msg) : State :=
      { (at_ true []).modWalker 0 1 fun w => { w with piece := some p, claims := cl, open_ := [⟨1, 4, 2, 0, false, ⟨0, 0⟩, none⟩] } with net := net }
    ((s piece_ [] []).walker 0 1).piece = some piece_ ∧ piece_.next < piece_.stop ∧ piece_.flying.length < piece_.sig.limit ∧
    (s piece_ [] []).freeCtxs 0 1 ≠ [] ∧ ((s piece_ [] []).stealAsked 0 1).isNone ∧ ((s piece_ [(2, false)] []).walker 0 1).claims = (2, false) :: [] ∧
    ({ piece_ with next := 4 } : Piece).stop ≤ ({ piece_ with next := 4 } : Piece).next ∧
    ((s piece_ [] [.retire 0 ⟨0, 1⟩ 1 2 0 none]).net[0]?).isSome ∧
    (∃ v ∈ ((s piece_ [] []).walker 0 1).open_, v.walk = 1 ∧ v.retired + 2 = v.total) ∧
    (((s piece_ [] [.stealAsk 0 1 ⟨⟨0, 2⟩, 0, none, none⟩]).stealAsked 0 1).map (·.1)) = some 0 ∧
    (s piece_ [] []).dispatchCtx 0 1 ≠ none ∧ ((at_ true []).walker 0 1).claims = [] ∧ ((at_ true []).dispatchCtx 0 1) = none ∧
    (0 : Nat) + 2 ≤ 4 := by decide +kernel

/-- PortsQueueFireAndStep: a token and a slot in flight to a bound tag, a token to a tag that is bound elsewhere, and one behind another. -/
theorem witness_port_steps :
    let k := tok_ .data
    let s (net : List Msg) (home : Nat) : State := { tile_ id with net := net, tags := [(0x200000, home)] }
    (s [.token 0 0x200000 3 k] 0).net[0]? = some (.token 0 0x200000 3 k) ∧ (s [] 0).tileOf 0x200000 = some 0 ∧
    ((s [] 0).tile 0).place.live = true ∧ Tag.linkOf 0x200000 = none ∧ earlierToken [.token 0 0x200000 3 k] 0 0x200000 3 = false ∧
    earlierToken [.token 0 0x200000 3 k, .token 0 0x200000 3 k] 1 0x200000 3 = true ∧ (s [] 1).tileOf 0x200000 ≠ some 0 ∧
    (s [] 1).isStub 0 0x200000 = false ∧ (s [.slot 0 0x200000 3 9 2] 0).net[0]? = some (.slot 0 0x200000 3 9 2) := by decide +kernel

/-- PortsQueueFireAndStep: a group that is ready to fire, and one of colophons that steps. -/
theorem witness_firings :
    let s (k : TokKind) : State := (tile_ id).modPort 0 fun e => { e with inputs := [(2, { InPort.reset with
      arc := true, bound := true, auto := true, entry := 0x100, queue := [tok_ k] })] }
    ((s .data).tile 0).port.tests = true ∧ ((s .data).tile 0).port.readyGroups = [(0x100, [2])] ∧ ((s .data).tile 0).port.stepGroup [2] = false ∧
    (s .data).freeCtxs 0 0 ≠ [] ∧ ((s (.colophon 1)).tile 0).port.readyGroups = [(0x100, [2])] ∧
    ((s (.colophon 1)).tile 0).port.stepGroup [2] = true ∧ (s (.colophon 1)).hasSlots 0 ((s (.colophon 1)).tile 0).port.autos = true := by
  decide +kernel

/-- MailsAreTakenAnsweredAndNoticed: a mail to an index with a handler and to one without; a full refusal list; a reservation at its deadline and
before; an answer, a withdrawal and a notice in flight. -/
theorem witness_mail_steps :
    let src : Sender := ⟨1, 2, 3⟩
    let s (f : PortEngine → PortEngine) (net : List Msg) : State :=
      { (tile_ id).modPort 0 fun e => f { e with mails := [(4, { entry := 0x100, valid := true, budget := 0 })] } with
        net := net, tags := [(0x200000, 0)] }
    let m (i : Nat) : Msg := .mail 0 0x200000 i src 1 7 false
    (s id [m 4]).net[0]? = some (m 4) ∧ (s id []).tileOf 0x200000 = some 0 ∧
    (((s id []).tile 0).port.mails.get MailBinding.reset 4).valid = true ∧ (((s id []).tile 0).port.mails.get MailBinding.reset 5).valid = false ∧
    ((s id []).tile 0).port.refusals = [] ∧ (s id []).mailsRunning 0 + ((s id []).tile 0).port.reservations.length < ((s id []).tile 0).port.limit ∧
    ((s id []).tile 0).port.mailStopped = false ∧ ((s id []).mailCtx 0).isSome ∧
    ((s (fun e => { e with refusals := List.replicate 64 (⟨1, 1, 1⟩, 0x200000) }) []).tile 0).port.refusals.length = 64 ∧
    ((s (fun e => { e with reservations := [⟨0, 0, src, 0⟩] }) []).tile 0).port.reservations[0]? = some ⟨0, 0, src, 0⟩ ∧
    (0 : Nat) ≤ (s id []).rtime 0 ∧ (s id []).rtime 0 < 1 ∧ ((s id []).tile 0).port.stub = none ∧
    earlierMail [.contextFree 1 src 0x200000] 0 1 src = false ∧ ((s id []).ctx src.cur).status = .free := by decide +kernel

/-- A read of eight bytes of actor 0's first token. -/
def read_ : DramReq :=
  { op := 0, aw := false, amo := 0, z := false, bytes := 8, key := 5, chase := 0, rq := 0x200000, tile := 0, port := 1, seq := 0, rtag := 0x200000
    rport := 2, by_ := ⟨0, 0⟩, refused := false, rows := [⟨0, 0, none, 0⟩], value := 0, cmp := 0, data := 0 }

/-- DramActorsPerformAndAnswer: a read in flight, with its key loaded and not, of a good and of a poisoned token; a write and an AMO; a reply
in flight that is the next owed; a FLUSH with and without an earlier request; a request to the host. -/
theorem witness_actors :
    let s (r : DramReq) (bad : List Nat) : State := { tile_ id with
      net := [.dramRequest 0 r], actors := [(0, { DramActor.reset with keys := [(5, 9)] })], dram := { (tile_ id).dram with poison := bad } }
    let noKey_ : State := { tile_ id with net := [.dramRequest 0 read_] }
    let w : Owed := ⟨0, 0, 0x200000, 2, ⟨0, 0⟩⟩
    let y : State := { (tile_ id).modOut 0 1 fun p => { p with owed := [w] } with tags := [(0x200000, 0)] }
    (s read_ []).request 0 0 0 = some (0, read_) ∧ (s { read_ with op := 1 } []).request 0 0 1 = some (0, { read_ with op := 1 }) ∧
    (s { read_ with op := 2 } []).request 0 0 2 = some (0, { read_ with op := 2 }) ∧
    (s { read_ with op := 4 } []).request 0 0 4 = some (0, { read_ with op := 4 }) ∧
    (s read_ []).keyPair 0 5 = some 9 ∧ noKey_.keyPair 0 5 = none ∧ noKey_.request 0 0 0 = some (0, read_) ∧
    (s read_ [0]).dram.poisoned 0 8 = true ∧ (s read_ []).dram.poisoned 0 8 = false ∧
    (s read_ []).earlierOpen 0 read_ = false ∧ ({ tile_ id with net := [.dramRequest 0 read_, .backing read_] } : State).earlierOpen 1 read_ = true ∧
    ((y.outPort (y.placeOf 0x200000) 1).nextOwed 0x200000 2) = some w ∧ y.tileOf 0x200000 = some 0 ∧
    y.owedAcks (y.placeOf 0x200000) 0 65 = 0 ∧ read_.peer = none ∧ read_.port < 16 := by decide +kernel

/-- NodesDuplicatesAndChannelsStep: a context that waits for a walk which fails; an invalidation owed, late and not; a channel, a lost actor and
a token at the bounds of their numbers. -/
theorem witness_nodes :
    let s := me_ fun k => { k with status := .waiting (.xlate 0 false 0 3) }
    let o : DupAck := { dup := 1, tile := 0, core := 0, who := 0, va := 0, sent := some 0 }
    let y : State := (tile_ id).modActor 95 fun a => { a with dir := [⟨0, 2 ^ 19, 0, [1], [o]⟩] }
    s.unitHeld 0 7 0 = false ∧ s.xlateWaiters 0 0 false = [(⟨0, 0, 0⟩, 0, 3)] ∧ s.walkHeads 0 0 false = [] ∧
    (match s.walk 0 0 false with | .error _ => true | .ok _ => false) = true ∧ (y.actor 95).owing[0]? = some o ∧ o.sent = some 0 ∧
    y.now ≤ 0 + 100000 ∧ (0 : Nat) + 100000 < 100001 ∧ (y.actor 95).spareUsed = false ∧ actorOf (128 * 0) < 96 ∧
    ({ tile_ id with net := [.shot 0 1 2 3 0 4096] } : State).flying 3 0 4096 = false ∧ (y.actor 95).lost = false := by decide +kernel

/-- MigrationsFreezeSealRebindAndClose: a migration in each step that a step of it needs; a stub, with something to send on and with nothing; a
seam and its acknowledgement. -/
theorem witness_migrations :
    let m (n : Nat) : Migration := { step := n, src := 0, dst := 1, tag := 0x200000, debts := [], sent := [], seams := [], by_ := none }
    let run : Choice := { file := 0, index := 0, grade := 0, fold := 1, abase := 0, actors := 1, inputs := 0, rect := 0, tiles := [], ranges := [] }
    let s (n : Nat) : State := ((tile_ id).modRebal 3 fun r => { r with migration := some (m n) }).modChase 3 fun c => { c with run := some run }
    let stub : State := (tile_ id).modPort 0 fun e => { e with stub := some ⟨1, 0x200000⟩ }
    let k : Msg := .slot 0 0x200000 4 9 2
    ((s 1).rebal 3).migration = some (m 1) ∧ (s 2).handlersIdle 0 = true ∧ (s 2).walksIdle 0 = true ∧ (s 2).enginesIdle 0 = true ∧
    (((s 2).modCtx ⟨0, 0, 0⟩ fun k => { k with status := .ready, handler := .firing 0 }).handlersIdle 0) = false ∧
    (s 4).runOf 3 = some run ∧ (m 4).src ≠ (m 4).dst ∧ (m 7).debts = [] ∧ (s 7).stubOwes 0 = false ∧
    ({ stub with net := [k] } : State).stubOwes 0 = true ∧ ({ stub with net := [k] } : State).forwarded k = some (.slot 1 0x200000 4 9 2) ∧
    (tile_ id).forwarded k = none ∧ (tile_ id).probeDue 0 = false ∧ rebalEn 0 = false ∧ (s 1).rebalHeld 3 = false := by decide +kernel

/-- MigrationsFreezeSealRebindAndClose: a tile with a probe at its one fed port. -/
theorem witness_probes :
    let s := ((tile_ id).modIn 0 2 fun d => { d with arc := true, src := some (0x200001, 0), queue := [tok_ .probe] })
    s.probeDue 0 = true ∧ (s.tile 0).port.arcs.Nodup := by decide +kernel

/-- GalleysAreKickedAgedAndAccepted: a kick with work and without; a zone with a galley in its queue and a service tile; a slot with a record to
deliver. -/
theorem witness_galley_steps :
    let s : State := { tile_ id with tags := [(0x200000, 0)] }
    let y := (s.modGalleys fun g => { g with queues := [(1, [9])], serviceTags := [(1, 0x200000)] }).modSlot 40 fun k =>
      { k with pendRec := some ⟨8, 40, 0, 0, 0⟩ }
    y.galleys.queues.get [] 1 = 9 :: [] ∧ y.serviceTile 1 = some 0 ∧ (y.core 0 3).npend.getLsbD (noticeBit .kickPending) = false ∧
    (y.slotAt 40).pendRec = some ⟨8, 40, 0, 0, 0⟩ ∧ slotZone 40 = 1 ∧ (y.core 0 2).evq.hasRoom = true ∧ (y.slotAt 41).pendRec = none ∧
    (y.galley 9).tail ≠ 1 ∧ ((y.modGalley 9 fun e => { e with en := true }).galley 9).en = true ∧ (y.galley 9).pending = false := by
  decide +kernel

/-- GalleyCommandsCompleteAndChasesRollBack: an accepted NOP, an accepted BARRIER that is the oldest and one that is not; a chase with nothing
that runs, and a reservation that is over. -/
theorem witness_commands_of_galleys :
    let p (op i : Nat) : Packet := ⟨BitVec.ofNat 32 i, (1 : Byte) :: List.replicate 63 0 |>.set 0 (BitVec.ofNat 8 op)⟩
    let c (i : BitVec 32) (k : BitVec 16) : OpenCmd := ⟨9, i, k, 0, 0x1000, 0⟩
    let s (q : Packet) (k : BitVec 16) : State := ((tile_ id).modGalleys fun g => { g with open_ := [c 0 k, c 1 k] }).writeLocal 0 0 .t noKey
      0x1000 64 (natOfBytes q.bytes)
    let first (s : State) : Option (BitVec 32) := (s.galleys.open_.find? (·.galley == 9)).map OpenCmd.index
    packetField (p 0 0) 0 1 = 0 ∧ packetField (p 7 1) 0 1 = 7 ∧ (s (p 0 0) 0).openCmd 9 (p 0 0) = some (c 0 0) ∧
    (s (p 7 1) 0).openCmd 9 (p 7 1) = some (c 1 0) ∧ first (s (p 7 0) 0) = some (p 7 0).index ∧ first (s (p 7 0) 0) ≠ some (p 7 1).index ∧
    (s (p 9 0) 0x8000).openCmd 9 (p 9 0) = some (c 0 0x8000) ∧ (s (p 0 0) 0).openCmd 9 (p 7 0) = none ∧
    let s := s (p 0 0) 0
    s.ccbValid (s.ccbOf 0) = false ∧
    s.chaseBusy 0 ⟨0, 4, 0⟩ = false ∧ s.input 0 3 = none ∧ (s.modChase 0 id).domainChases 0 = [0] ∧ s.busyElsewhere 0 = false ∧ s.runOf 0 = none ∧
    ((s.modChase 0 fun c => { c with reserved := [1] }).chase 0).reserved ≠ [] ∧ (s.chase 0).reservedUntil ≤ s.now := by
  decide +kernel

/-- ClocksStepAndPowerIsKept: a step that may rise, one that must fall and one that stays; a throttle to release; a clamp; idle cores; a
steward that is late. -/
theorem witness_clocks :
    let s (f : TileClock → TileClock) : State := (tile_ id).modClk 0 f
    ((s id).tile 0).clk.step = ((s id).tile 0).target ∧ ((s fun k => { k with step := 8 }).tile 0).target < 8 ∧
    6 < ((s fun k => { k with step := 6 }).tile 0).target ∧
    ((s fun k => { k with watch := [(1, { counted := 300000, at_ := 0, slowed := false, raised := false })] }).tile 0).clk.watch.find 1 =
      some { counted := 300000, at_ := 0, slowed := false, raised := false } ∧ neighbour 0 1 = some 1 ∧ neighbour 0 2 = none ∧
    ((s fun k => { k with clamp := 99 }).tile 0).clk.clamp < 100 ∧ 0 < ((s id).tile 0).clk.step ∧ ((s id).core 0 1).quiet = true ∧
    (((s id).modCore 0 1 fun k => { k with issue := { k.issue with idle := 64 } }).core 0 1).issue.idle = 64 ∧
    ((s id).modPower fun p => { p with throttled := true }).plat.power.throttled = true ∧ (s id).plat.power.alarmed = false ∧
    ((s id).modPower fun p => { p with stewardRunning := true }).plat.power.stewardRunning = true ∧ (s id).plat.power.stewardRunning = false ∧
    ((s id).tile 0).place.live = true ∧ ((s id).tile 1).place.live = false ∧
    ((s fun k => { k with lock := true, depth := 1, src := 1 }).tile 0).clk.lock = true := by decide +kernel

/-- A frame of a session, of an operation. -/
def frame_ (session op : Nat) (body : List Byte) : Frame :=
  { version := 1, op := op, session := session, seq := 0, ack := 0, length := body.length, addr := 0, zero := 0, body := body }

/-- A module whose port 0 is up, with session 1 enabled for chase 0, and the root of trust in a phase. -/
def ports_ (phase : Phase) : State :=
  ((tile_ id).modEth 0 fun e => { e with linkUp := true, sessions := [(1, { Session.reset with word := 4096 })] }).modRoot fun r =>
    { r with phase := phase }

/-- RootOfTrustBootsAndAnswers: an IDENTITY that is served, one that is malformed and one that the phase does not serve; the phases of boot. -/
theorem witness_root :
    let f := frame_ 0 5 (bytesOfNat 8 1)
    (ports_ .released).finishFlash.receipt 0 5 f = .accepted ∧ 8 ≤ f.body.length ∧ leField f.body 0 2 = 1 ∧ leField f.body 2 2 = 0 ∧
    f.body.drop 8 = [] ∧ ((ports_ .released).finishFlash.acceptFrame 0 5 f).plat.root.serves 1 = true ∧
    ((ports_ .released).finishFlash.acceptFrame 0 5 f).plat.root.serves 0x101 = false ∧
    (ports_ .released).finishFlash.receipt 0 5 (frame_ 0 5 (bytesOfNat 9 1)) = .accepted ∧ (frame_ 0 5 (bytesOfNat 9 1)).body.drop 8 ≠ [] ∧
    State.reset.finishFlash.plat.root.phase = .powerUp ∧ Root.reset.verifies 1 Root.reset.flashImage = false ∧
    (ports_ .released).plat.root.writing = none ∧ (ports_ .released).plat.root.fuses.life = 0 := by decide +kernel

/-- EthernetPortsCarryFramesAndRings: a WRITE of an enabled session that is the next expected, one out of order, one of no session; an ingest frame
that no ring matches, one of the longest length and one longer; a port without link. -/
theorem witness_ethernet :
    let f := frame_ 1 1 [7]
    let e (n : Nat) : EthFrame := { mac := 5, vlan := none, prio := 0, bytes := List.replicate n 0, time := 0 }
    (ports_ .released).receipt 0 1 f = .accepted ∧ (ports_ .released).receipt 0 1 { f with seq := 1 } = .discarded ∧
    (ports_ .released).receipt 0 1 { f with session := 2 } = .dropped ∧ frameMalformed f = false ∧ frameMalformed { f with length := 2 } = true ∧
    (ports_ .released).carries 0 1 1 = true ∧ (ports_ .released).carries 0 2 1 = false ∧ ((tile_ id).eth 0).linkUp = false ∧
    (e 9212).bytes.length + 4 ≤ 9216 ∧ 9216 < (e 9213).bytes.length + 4 ∧ (∀ r, r < 256 → (ports_ .released).ringMatches 0 (e 60) r = false) ∧
    ((ports_ .released).galley 9).via = none ∧ ((ports_ .released).eth 0).pausing.find 3 = none := by decide +kernel

/-- LinksRetryAndJtagReaches: the flit that is expected, the duplicates at the two ends of their range, and one ahead; a free spare and a used
one; a debug level that reaches and one that does not. -/
theorem witness_links :
    let s := ports_ .released
    s.linkUp 15 = true ∧ isDuplicate 0xFFF 0 = true ∧ isDuplicate 0x800 0 = true ∧ isDuplicate 0x7FF 0 = false ∧ isDuplicate 0 0 = false ∧
    (s.link 15).rxNext = 0 ∧ (s.link 15).failed = [] ∧ (s.link 15).lanes ≠ 0 ∧ (s.link 15).spareFree = true ∧
    ((s.modLink 15 fun k => { k with spareFree := false }).link 15).spareFree = false ∧ s.rootRuns = true ∧ (ports_ .powerUp).rootRuns = false ∧
    s.debugReaches 1 = false ∧ (s.modRoot fun r => { r with debug := 2 }).debugReaches 2 = true ∧ s.plat.root.fuses.lifecycle = 0 ∧
    s.plat.root.grant 3 = .free ∧ (s.modRoot fun r => { r with fuses := { r.fuses with life := 3 } }).plat.root.grant 1 = .challenge ∧
    (s.tile 0).place.live = true := by decide +kernel

/-- TargetStepFollowsCapsAndPlan: a tile with no plan, whose steps are all open, and a plan that bars every step within the caps. -/
theorem witness_target : (∃ n, n < 32 ∧ Tile.reset.clk.barred n = false) ∧
    (∀ n, n < 32 → ({ Tile.reset.clk with plan := [0, 0xFFFFFFFF00000000] } : TileClock).barred n = true) := by decide +kernel

/-! ## Instructions that complete: the hypotheses of a statement met together, and the instruction retired -/

/-- An instruction retires: it answers a next state in which its context has gone past it and has taken no trap. -/
def retires (i : Instr) (s : State) : Bool :=
  match exec i s with
  | .next t => t.me.pc != s.me.pc && t.me.trap.cause == 0 && t.me.pend.isNone
  | .fault _ => false
  | .refused _ => false

/-- Operands of an atomic at general register 6, with its value in register 7. -/
def oAmo (m : Option (BitVec 10)) : Opnd := { dab with p := true, m := m }

/-- The eight atomics. -/
def amos (o : Opnd) : List Instr := [.amoadd o, .amoand o, .amoor o, .amoxor o, .amomin o, .amomax o, .amoswp o, .amocas o]

/-- AtomicsReadModifyAndWrite, in T: an atomic on a readable unit, and on an uncorrectable one. -/
theorem witness_atomics_in_t :
    let o := oAmo none
    let s := at_ false [(6, 0x100), (7, 9)]
    let bad := s.modTile 0 fun y => { y with t := { y.t with bad := [0x10] } }
    accSpace o = .t ∧ s.mayRun (useAmo o false) ∧ s.mayRun (useAmo o true) ∧ bad.mayRun (useAmo o false) ∧ bad.mayRun (useAmo o true) ∧
    s.accessFault .t 0x100 8 true false true = none ∧ s.badLocal 0 0 .t s.me.sys.bkey 0x100 8 = none ∧
    bad.accessFault .t 0x100 8 true false true = none ∧ bad.badLocal 0 0 .t bad.me.sys.bkey 0x100 8 = some 0x100 ∧
    (∀ i ∈ amos o, retires i s = true) ∧ ∀ i ∈ amos o, retires i bad = true := by decide +kernel

/-- A state whose translation buffer holds an entry for page 0, with key 9 in slot 0 of actor 0 and some poisoned tokens. -/
def inD (s : State) (entry : Word) (poison : List Nat) : State :=
  { s.modXnode 0 fun x => { x with buf := [{ page := 0, level := 0, entry := entry, gen := 0 }] } with
    actors := [(0, { DramActor.reset with keys := [(0, 9)] })], dram := { s.dram with poison := poison } }

/-- Privileged, with physical access to D. -/
def physical_ (gs : List (Nat × Word)) : State :=
  inD ((at_ true gs).modMe fun k => { k with trap := { k.trap with ts := { k.trap.ts with pd := true } } }) 0 []

/-- AtomicsReadModifyAndWrite, AccessesToDAndTranslations: an atomic, a load and a store on a local page, good and poisoned, on a page of
another kind, on a page that the buffer lacks, under a key slot that is not loaded, and physical. -/
theorem witness_accesses_to_d :
    let o := oAmo (some 0x200)
    let l : Opnd := { o with p := false, f := 3 }
    let gs : List (Nat × Word) := [(6, 0x100), (7, 8)]
    let s := inD (at_ false gs) 0xF []
    let hit (s : State) (w : Bool) (a : Nat) : Option Word := ((s.tile 0).eng.xnode.hit a w).map Xentry.entry
    accSpace o = .d ∧ s.mayRun (useAmo o false) ∧ s.mayRun (useAmo o true) ∧ s.mayRun (useLoad l) ∧ s.mayRun (useStore l) ∧
    s.dRange 0x100 8 = none ∧ s.dRange 0x108 8 = none ∧ s.physical = false ∧ hit s true 0x100 = some 0xF ∧ hit s false 0x108 = some 0xF ∧
    entryKind 0xF = 0 ∧ entryKind 0x1F = 1 ∧ s.mySlot = 0 ∧ s.keyPair 0x100 0 = some 9 ∧ s.dram.poisoned 0x100 8 = false ∧
    hit (inD (at_ false gs) 0x1F []) true 0x100 = some 0x1F ∧ (inD (at_ false gs) 0xF [2]).dram.poisoned 0x100 8 = true ∧
    { s with actors := [] }.keyPair 0x100 0 = none ∧ hit (at_ false gs) true 0x100 = none ∧
    (physical_ gs).physical = true ∧ (physical_ gs).dRange 0x100 8 = none ∧ (physical_ gs).keyPair 0x100 (physical_ gs).mySlot = some 9 ∧
    (∀ i ∈ amos o ++ [.ld l, .st l], retires i s = true ∧ retires i (inD (at_ false gs) 0xF [2]) = true ∧ retires i (physical_ gs) = true) := by
  decide +kernel

/-- LocalAccessesFaultLoadStoreAndReadBack: loads and stores of the four local spaces, of a readable unit and of an uncorrectable one. -/
theorem witness_local_loads_and_stores :
    let o (sp : BitVec 10) : Opnd := { dab with m := some (sp <<< 7), f := 3 }
    let s := at_ false [(5, 1), (6, 0x100), (7, 8)]
    let bad := (s.modTile 0 fun y => { y with t := { y.t with bad := [0x10] } }).modMyCore fun k => { k with
      a := { k.a with bad := [0x10] }, c := { k.c with bad := [0x10] }, w := { k.w with bad := [0x10] } }
    (∀ n ∈ [0, 1, 2, 3], let sp := accSpace (o (BitVec.ofNat 10 n))
      sp ≠ .d ∧ s.accessFault sp 0x108 8 false false false = none ∧ s.accessFault sp 0x108 8 true false true = none ∧
      s.badLocal 0 0 sp s.me.sys.bkey 0x108 8 = none ∧ bad.badLocal 0 0 sp bad.me.sys.bkey 0x108 8 = some 0x100 ∧
      retires (.ld (o (BitVec.ofNat 10 n))) s = true ∧ retires (.ld (o (BitVec.ofNat 10 n))) bad = true ∧
      retires (.st (o (BitVec.ofNat 10 n))) s = (decide (n ≤ 1)) ) ∧
    (∀ n ∈ [0, 1], let p := { o (BitVec.ofNat 10 n) with p := true }
      retires (.lda p) s = true ∧ retires (.lda p) bad = true ∧ retires (.stl p) s = true) ∧
    s.mayRun (useLoad (o 0)) ∧ s.mayRun (useStore (o 0)) ∧ s.me.acks = 0 ∧ s.awaitsOutside s.cur = false ∧
    (s.modMe fun k => { k with acks := 1 }).me.acks ≠ 0 := by decide +kernel

/-- WindowAccessesConvertTheirElements: LDW and STW of an element within a window of A, and LDW of an uncorrectable unit. -/
theorem witness_window_accesses :
    let o : Opnd := { o0 with m := some 3, ni := 1, d := 7, a := 6, imm := 5 }
    let s := (at_ false []).modMyCore fun k => { k with wdesc := [(3, 0x0008300100100400)] }
    let bad := s.modMyCore fun k => { k with a := { k.a with bad := [0x40] } }
    let w := windowOf 0x0008300100100400
    w.fault = none ∧ 5 < w.length ∧ s.quoinFault 0 0 w.space (w.place 5).1 (fmtBytes w.fmt) true = none ∧ s.mayRun (useLoad o) ∧
    s.mayRun (useStore o) ∧ s.badLocal 0 0 w.space s.me.sys.bkey (w.place 5).1 (fmtBytes w.fmt) = none ∧
    (bad.badLocal 0 0 w.space bad.me.sys.bkey (w.place 5).1 (fmtBytes w.fmt)).isSome ∧
    retires (.ldw o) s = true ∧ retires (.ldw o) bad = true ∧ retires (.stw o) s = true := by decide +kernel

/-- QuiresAreReachedArriveAndTurn: an access of a quire whose core has not arrived, one that is turned back until the turn, and arrivals. -/
theorem witness_quire_accesses :
    let o : Opnd := { dab with f := 3 }
    let q (bank : Nat) : Quire := { (at_ false []).quire 0 0 with
      en := true, base := 0x1000, leaf := 16, depth := 2, dmax := 0, parts := 1, banks := [(0, bank)] }
    let s (bank : Nat) : State := (at_ false []).modQuire 0 0 fun _ => q bank
    (s 0).mayRun (useLoad o) ∧ (s 0).mayRun (useStore o) ∧ (s 0).mayRun .none ∧ (q 0).takes 0 = true ∧ (q 0).takes 1 = false ∧ (q 2).bank 0 = 2 ∧
    (s 0).quoinFault 0 0 .t 0x1000 8 true = none ∧ (s 0).badLocal 0 0 .t (s 0).me.sys.bkey 0x1000 8 = none ∧ (s 0).me.granted = false ∧
    retires (.ldq o) (s 0) = true ∧ retires (.stq o) (s 0) = true ∧ retires (.ldq o) (s 1) = false ∧ retires (.qarrive o0) (s 1) = true ∧
    retires (.qarrive o0) (s 15) = false ∧ retires (.qwait o0) (s 0) = true ∧ retires (.qwait o0) (s 1) = false ∧
    retires (.qstat o) (s 0) = true := by decide +kernel

/-- QuiresAreReachedArriveAndTurn: a descriptor in order for QCFG. -/
theorem witness_quire_descriptor :
    let v := 0x1000 + 128 * 2 ^ 32 + 2 * 2 ^ 64 + 2 ^ 72 + 2 ^ 80 + 2 ^ 96
    let s := (at_ false [(5, 0x100)]).writeLocal 0 0 .t noKey 0x100 32 v
    s.readLocal 0 0 .t noKey 0x100 32 = v ∧ quireCheck v = none ∧ (quireCheck (2 ^ 80)).isSome ∧ s.descHit 0x100 32 = none ∧ s.quireIdle 0 0 = true ∧
    s.badLocal 0 0 .t noKey 0x100 32 = none ∧ s.mayRun (.g [5] []) ∧ retires (.qcfg { o0 with d := 5 }) s = true := by decide +kernel

/-- VectorAccessesReachTheirLanes, WindowAccessesConvertTheirElements: the six plain accesses with two active lanes, of 32 bits and of four; a
unit that one of them finds uncorrectable. -/
theorem witness_vector_lanes :
    let o (fmt : Nat) : Opnd := vop (modOf fmt 1)
    let s := vat [(4, 0x100), (5, 8)] [(5, 2)] [(1, 0x11)]
    let bad := s.modTile 0 fun y => { y with t := { y.t with bad := [0x10] } }
    let plain (i : Nat) : Nat := 0x100 + 4 * i
    (∀ fmt ∈ [0, 13], s.mayRun ⟨[], [], [], [], useMask (o fmt), []⟩ ∧
      ∀ u ∈ [useVld (o fmt) [4] [], useVld (o fmt) [4, 5] [], useVld (o fmt) [4] [5], useVst (o fmt) [4] [], useVst (o fmt) [4, 5] [],
        useVst (o fmt) [4] [5]], s.me.blocked u = false ∧ s.gate s.cur u = none) ∧
    s.lives (o 0) 32 0 = true ∧ s.lives (o 0) 32 1 = true ∧ s.lives (o 0) 32 2 = false ∧ s.lives (o 13) 4 0 = true ∧
    (∀ i, i < 2 → plain i + 4 ≤ Space.t.size ∧ plain i % 4 = 0 ∧ s.quoinFault 0 0 .t (plain i) 4 true = none ∧
      s.badLocal 0 0 .t s.me.sys.bkey (plain i) 4 = none ∧ bad.badLocal 0 0 .t bad.me.sys.bkey (plain i) 4 = some 0x100) ∧
    ∀ fmt ∈ [0, 13], ∀ i ∈ [Instr.vld (o fmt), .vlds (o fmt), .vldg (o fmt), .vst (o fmt), .vsts (o fmt), .vstg (o fmt)],
      retires i s = true ∧ retires i bad = true := by decide +kernel

/-- WindowAccessesConvertTheirElements: VLDF and VSTF within a window, of a readable unit and of an uncorrectable one. -/
theorem witness_vector_windows :
    let o : Opnd := { vop (modOf 0 1) with p := true, fx := 24 }
    let s := (vat [(4, 5)] [] [(1, 0x11)]).modMyCore fun k => { k with wdesc := [(3, 0x0008300100100400)] }
    let bad := s.modMyCore fun k => { k with a := { k.a with bad := [0x40] } }
    let w := windowOf 0x0008300100100400
    o.fx.toNat / 8 % 16 = 3 ∧ s.mayRun ⟨[], [], [], [], useMask o, []⟩ ∧ s.me.blocked (useVld o [4] []) = false ∧
    s.gate s.cur (useVld o [4] []) = none ∧ s.me.blocked (useVst o [4] []) = false ∧ s.gate s.cur (useVst o [4] []) = none ∧
    w.fault = none ∧ s.lives o 32 0 = true ∧ s.lives o 32 1 = true ∧ s.lives o 32 2 = false ∧ 5 + 1 < w.length ∧
    (∀ i, i < 2 → s.quoinFault 0 0 w.space (w.place (5 + i)).1 (fmtBytes w.fmt) true = none ∧
      s.badLocal 0 0 w.space s.me.sys.bkey (w.place (5 + i)).1 (fmtBytes w.fmt) = none ∧
      (bad.badLocal 0 0 w.space bad.me.sys.bkey (w.place (5 + i)).1 (fmtBytes w.fmt)).isSome) ∧
    retires (.vldf o) s = true ∧ retires (.vldf o) bad = true ∧ retires (.vstf o) s = true := by decide +kernel

/-- StreamRegistersPopAndPush: a vector stream with a token, a stop token and the terminal one at its head, and a write stream. -/
theorem witness_vector_streams :
    let o : Opnd := { vop (modOf 0 0) with a := 28, b := 9 }
    let w : Opnd := { vop (modOf 0 0) with d := 29, a := 4 }
    let s (buf : List StreamItem) : State := core_ fun k => { k with streams := [
      (unitOf true 28, { bind := some (bind_ false 0 buf), nbind := 1, cancelled := [] }),
      (unitOf true 29, { bind := some (bind_ true 0 []), nbind := 1, cancelled := [] })] }
    let use : Use := ⟨[], [9], [], [], useMask o, []⟩
    (s []).mayRun use ∧ (s []).me.inFlight (.v 28) = false ∧ (s []).me.inFlight (.v 2) = false ∧
    (s [.elem 1]).myCore.binding 0 true 28 = some (bind_ false 0 [.elem 1]) ∧ (s []).myCore.binding 0 true 2 = none ∧
    (s []).mayRun (useV w [4] [29]) ∧ (s []).myCore.binding 0 true 29 = some (bind_ true 0 []) ∧
    retires (.vpop o) (s [.elem 1]) = true ∧ retires (.vpop o) (s [.stop 1]) = true ∧ retires (.vpop o) (s [.terminal]) = true ∧
    retires (.vpop o) (s []) = false ∧ retires (.vpop { o with b := 0 }) (s [.stop 1]) = false ∧
    retires (.vpush w) (s []) = true := by decide +kernel

/-- The arithmetic instructions retire. -/
theorem retires_arithmetic :
    let s := at_ false [(6, 3), (7, 5)]
    let o := dab
    ∀ i ∈ [Instr.add o, .sub o, .and o, .or o, .xor o, .mul o, .mulh o, .mulhz o, .mulw o, .div o, .divz o, .rem o, .remz o, .shl o, .shr o,
      .sar o, .slt o, .sltz o, .andn o, .orn o, .min o, .max o, .minz o, .maxz o, .addi o, .andi o, .xori o, .shli o, .shri o, .sari o, .slti o,
      .movi o, .mov o, .sel o, .sext o, .zext o, .lea o, .clz o, .ctz o, .popc o, .brev o, .abs o, .neg o, .bfx o, .bfxs o, .bfi o],
      retires i s = true := by decide +kernel

/-- The transfers, the fences and the instructions of the core's own state retire. -/
theorem retires_control :
    let s := at_ true [(1, 0x40), (5, 1), (6, 8)]
    let o := { da with imm := 4 }
    let x : Opnd := { o0 with x := 0x54, d := 4 }
    let t := s.modMyCore fun k => { k with evq := { k.evq with ready := [⟨1, 0, 0, 0, 0⟩] } }
    (∀ i ∈ [Instr.br o, .call o, .bz o, .bnz o, .bltz o, .bgez o, .beq o, .bne o, .blt o, .bge o, .jr x, .callr x, .ret x, .nop x, .switch x,
      .loop o, .fence x, .fenceL x, .fenceS x, .fenceT x, .fenceE x, .prio x, .freqreq x, .rdtime x, .rdcyc x, .mfs x, .mts x, .ungang x,
      .pollev x, .mstat x], retires i s = true) ∧
    (∀ i ∈ [Instr.waitev x, .pollev x, .sleep { x with a := 6 }], retires i t = true) := by decide +kernel

/-- The instructions of the vector unit retire. -/
theorem retires_vector :
    let o := vop (modOf 0 0)
    let n := vop (modOf 7 0)
    let s := vat [(4, 3), (5, 1)] [] []
    (∀ i ∈ [Instr.vadd o, .vsub o, .vmul o, .vdiv o, .vmin o, .vmax o, .vabs o, .vneg o, .vfma o, .vfms o, .vfnma o, .vfnms o, .vrcp o,
      .vrsqrt o, .vsqrt o, .vmov o, .vsel o, .vbcast o, .vrot o, .vextr o, .vperm o, .vcompress o, .vexpand o, .vcvt o, .vredsum o, .vredmin o,
      .vredmax o, .vscan o, .vdot2 o, .vcmpeq o, .vcmplt o, .vcmple o, .vcmpne o, .vspaacc o, .vspaget o], retires i s = true) ∧
    ∀ i ∈ [Instr.vand n, .vor n, .vxor n, .vshl n, .vshr n, .vsar n, .vadds n, .vsubs n, .vdot4 n, .vcdot n, .vcdot4 n, .kand n, .kor n, .kxor n,
      .knot n, .kmov n, .kset n, .kpopc n, .kfirst n, .vspaclr n, .vspadrain n], retires i s = true := by decide +kernel

/-- The functions of one operand retire. -/
theorem retires_vector_functions :
    let o := vop (modOf 0 1)
    let s := vat [] [(4, 0x3F800000)] [(1, 1)]
    ∀ i ∈ [Instr.vexp2 o, .vlog2 o, .vsin o, .vcos o, .vtanh o], retires i s = true := by decide +kernel

/-- VISECT and VUNION of coordinates that rise. -/
theorem retires_sparse :
    let o := vop (modOf 8 1)
    let s := vat [] [(4, 0x300000001), (5, 0x400000003)] [(1, 0x11)]
    retires (.visect o) s = true ∧ retires (.vunion o) s = true := by decide +kernel

/-- The matrix commands of a queue with room, MWAIT and MWRR. -/
theorem retires_matrix :
    let s := at_ true [(5, 128 * 2 ^ 20), (6, 0x01010101), (7, 0)]
    let mwload : Opnd := { o0 with p := true, d := 5, a := 4 }
    retires (.mwload mwload) s = true ∧ retires (.mwait { o0 with p := true, a := 7 }) s = true ∧
    retires (.mwrr { o0 with p := true, a := 6 }) s = true := by decide +kernel

/-- The copy engine's instructions. -/
theorem retires_copy :
    let s := at_ false [(5, 1), (6, 7)]
    let o : Opnd := { o0 with p := true, d := 5, a := 2 }
    ∀ i ∈ [Instr.cpset { o with fx := 4 }, .cpdone o, .cpwait { o with d := 0 }], retires i s = true := by decide +kernel

/-- The stream engine's instructions: bindings of the four forms, their ends, and what reads a read stream. -/
theorem retires_streams :
    let s := at_ false [(6, 0x1000)]
    let v := s.modTile 0 id
    let o (d : Nat) : Opnd := { o0 with p := true, d := BitVec.ofNat 6 d, a := 6 }
    let b := bound_ (bind_ false 0 [.elem 1, .stop 0, .elem 2])
    let r : Opnd := { o0 with p := true, d := 5, a := 8 }
    (∀ i ∈ [Instr.sbind (o 8), .sbindw (o 9), .sbindv (o 28), .sbindvw (o 29)], retires i v = true) ∧
    ∀ i ∈ [Instr.sunbind r, .sstat r, .bstop r, .sskip r], retires i b = true := by decide +kernel

/-- The walker's instructions: a walk of four coordinates, what WSTAT reads of it, the end of one that is not open, and the answer to a steal. -/
theorem retires_walkers :
    let v := 1 + 2 ^ 8 + 4 * 2 ^ 64 + 2 ^ 192
    let s := ((at_ false [(6, 0x1000)]).writeLocal 0 0 .t noKey 0x1000 128 v).modWalker 0 0 fun x => { x with answer := [(0, 5)] }
    let o : Opnd := { o0 with p := true, d := 5, a := 6 }
    ∀ i ∈ [Instr.wlaunch o, .wstat o, .wjoin o, .wsteal o, .wnext o], retires i s = true := by decide +kernel

/-- The instructions of the ports: sends on an arc with a slot, receives of a data token, a colophon forwarded, and the rest. -/
theorem retires_ports :
    let o : Opnd := { o0 with p := true, d := 5, a := 6 }
    let s := arc_ 1 [tok_ .data]
    let z := (arc_ 1 [tok_ (.colophon 1)]).modMe fun k => { k with regs := { k.regs with g := [(5, 0x40)] } }
    let g := (arc_ 1 [tok_ .data]).modMe fun k => { k with regs := { k.regs with g := [(5, 0x1000)] } }
    (∀ i ∈ [Instr.sendv o, .sendg o, .sendc o, .recvv o, .recvg o, .peek o, .bindhMlimit o, .pstat o, .pstatOutput o, .pstatMail o, .proof o],
      retires i s = true) ∧
    retires (.fwdc o) z = true ∧ (∀ i ∈ [Instr.sendt o, .recvt o, .bindh o, .bindhMail o], retires i g = true) := by decide +kernel

/-- MAIL, MREPLY and MWAITF. -/
theorem retires_mail :
    let s : State := { at_ false [(6, 0x040000), (7, 0x1000)] with tags := [(0x040000, 0)] }
    let t := s.modPort 0 fun e => { e with replies := [⟨0, 0, 0, 0, 1, false⟩] }
    retires (.mail dab) s = true ∧ retires (.mreply da) t = true ∧ retires (.mwaitf da) s = true := by decide +kernel

/-- DREQ on an arc to an actor with slots for its replies, and XLATE. -/
theorem retires_dram :
    let act : Tag := BitVec.ofNat 24 (3 * 2 ^ 21)
    let s : State := { (at_ false [(6, 0x1000), (7, 0x100)]).modOut 0 0 fun p => { p with arc := true, slots := 8, dtag := act } with
      tags := [(0x000000, 0)] }
    retires (.xlate dab) (at_ false [(6, 0x1000)]) = true ∧ retires (.dreq { dab with d := 4 }) s = true := by decide +kernel

/-- The micro-kernel's instructions, each on operands that it takes or turns away with a status. -/
theorem retires_kernel :
    let s := at_ true [(6, 0x1100), (7, 0x2000)]
    let o := { dab with p := true }
    let u := ((at_ true [(6, 0x12), (7, 0x2000)]).modCtx ⟨0, 1, 2⟩ fun k => { k with status := .ready })
    retires (.ctxsave o) u = true ∧ retires (.ctxload o) (at_ true [(6, 0x12), (7, 0x2000)]) = true ∧
    ∀ i ∈ [Instr.qmap o, .qload o, .qsave o, .qunmap o, .engrd o, .engwr o, .quoinrd o, .kload o, .fmload o, .fmdrain o, .fmswap o, .fmclear o,
      .tagbind o, .migrate o, .clkplan o], retires i s = true := by decide +kernel

/-- A module whose chase 5 has a control block at 0x100 of D, as a root with key slot 1, and a translation that maps the first 2^33 bytes of D to
themselves. -/
def chase_ (gs : List (Nat × Word)) : State :=
  let s : State := { at_ true gs with actors := [(0, { DramActor.reset with keys := [(0, 9), (1, 8)] })] }
  (((s.dramWrite 9 0x100 256
    (1 + 3 * 2 ^ 8 + 5 * 2 ^ 32 + 0x10000 * 2 ^ 128 + 2 ^ 368 + 0xA2A00000 * 2 ^ 448 + 0x20000 * 2 ^ 576)).dramWrite 9 0x10000 8 0x18001).dramWrite
    9 0x18000 8 7).modChase 5 fun c => { c with ccb := some 0x100 }

/-- A placement of actor 0 with one member, on tile 0. -/
def choice_ : Choice :=
  { file := 0x21000, index := 0, grade := 0, fold := 1, abase := 0, actors := 1, inputs := 0, rect := 0xA2A00000
    tiles := [⟨0, 0, 0, 0, 0, false, false⟩], ranges := [] }

/-- FormesLoadSwapAndTagsBind: a valid control block and a chase not at work; a placement loaded and none; the drain of a chase that runs
nothing, and of one that runs a placement on a tile. What a forme file holds beyond its head is an unknown of the configuration, so that no
placement is loaded on a concrete state. -/
theorem witness_formes_complete :
    let s := chase_ [(6, 0x100), (7, 0x21000)]
    let z := chase_ [(6, 0x100), (7, 0)]
    let l := z.modChase 5 fun c => { c with loaded := some { choice_ with tiles := [] } }
    let r := (z.modChase 5 fun c => { c with run := some choice_ }).modIn 0 2 fun d => { d with arc := true }
    let o := { dab with p := true }
    s.ccbValid 0x100 = true ∧ s.chaseBusy 5 s.cur = false ∧ (s.nameChase 0x100).2 = 5 ∧ (s.chase 5).loaded = none ∧ (l.chase 5).loaded ≠ none ∧
    z.chaseDrained 5 = true ∧ r.chaseDrained 5 = false ∧ (r.startDrain 5 false).chaseDrained 5 = false ∧ l.firstStray 5 = none ∧
    (match (l.nameChase 0x100).1.chaseWrite 0 0 0x100 0x20000 16 0 with | (_, .ok ()) => true | (_, .error _) => false) = true ∧
    retires (.fmload o) (s.dramWrite 8 0x21000 16 (1 + 0x00010001 * 2 ^ 32)) = true ∧ retires (.fmload o) s = false ∧
    retires (.fmdrain o) z = true ∧ retires (.fmdrain o) r = false ∧ retires (.fmswap o) l = true ∧ retires (.fmclear o) l = true ∧
    tells (fun t => ((t.chase 5).run, (t.chase 5).loaded)) (exec (.fmswap o) l) = some (some { choice_ with tiles := [] }, none) := by
  decide +kernel

/-- FormesLoadSwapAndTagsBind: a tag of a running forme, a tile of the chase and one of none; a destination for a member; a plan in order. -/
theorem witness_tags_and_migrations :
    let o := { dab with p := true }
    let s (gs : List (Nat × Word)) : State :=
      let y := (chase_ gs).modChase 5 fun c => { c with run := some choice_ }
      { (y.modTile 0 fun k => { k with place := { k.place with live := true, working := true, chase := some 5, member := 0x200000 } }).modTile 1
        fun k => { k with place := { k.place with live := true, working := true } } with tags := [(0x200000, 0)] }
    let b := s [(6, 0x200000), (7, 1)]
    let p := (s [(6, 0x1000)]).writeLocal 0 0 .t noKey 0x1000 16 (1 + 2 ^ 8 + 1610000 * 2 ^ 64 + 1640000 * 2 ^ 96)
    b.chaseOfTag 0x200000 = some 5 ∧ (b.tile 1).place.chase = none ∧ b.memberOf 5 0x200000 = some ⟨0, 0, 0, 0, 0, false, false⟩ ∧
    b.runOf 5 = some choice_ ∧ choice_.pinned 0 = false ∧ b.migrating 5 = false ∧ (b.chase 5).work = .none ∧ (b.chase 5).struck = false ∧
    b.isDestination 5 0 false 1 = true ∧ b.isDestination 5 0 false 0 = false ∧ b.destination 5 0 false = some 1 ∧
    tells (fun t => t.tileOf 0x200000) (exec (.tagbind o) b) = some (some 1) ∧
    tells (fun t => (t.rebal 5).migration.map (·.dst)) (exec (.migrate o) b) = some (some 1) ∧
    retires (.tagbind o) b = true ∧ retires (.migrate o) b = true ∧ retires (.clkplan o) p = true ∧
    tells (fun t => (planBands t.myTile.clk.plan).length) (exec (.clkplan o) p) = some 1 := by decide +kernel

/-- GalleysAreMappedSavedAndUnmapped: a control block in order of an enabled galley, mapped, saved and unmapped. -/
theorem witness_galleys_complete :
    let o := { dab with p := true }
    let v := 1 + 2 ^ 8 + 0x30000 * 2 ^ 64 + 4 * 2 ^ 128
    let s (gs : List (Nat × Word)) : State := let y := chase_ gs; { (y.dramWrite 9 (y.galleys.tableBase + 128 * 9) 128 v) with
      galleys := { y.galleys with tableBase := y.galleys.tableBase } }
    let m := (s [(6, 5), (7, 9)]).modGalley 9 fun e => { e with en := true }
    let k := m.modSlot 5 fun k => { k with mapped := true, galley := 9 }
    (m.slotAt 5).mapped = false ∧ (m.ageGalleys.galley 9).mapped = false ∧ (m.ageGalleys.galley 9).en = true ∧ blockBad v 0 = false ∧
    (match m.tableRead (m.galleys.tableBase + 128 * 9) 128 with | .ok x => x == v | .error _ => false) = true ∧
    (k.slotAt 5).pendRec = none ∧ (k.slotAt 5).fault = none ∧ k.ageGalleys.slotRecords 5 = [] ∧
    tells (fun t => ((t.slotAt 5).mapped, (t.galley 9).slot.toNat)) (exec (.qmap o) m) = some (true, 5) ∧
    tells (fun t => (t.slotAt 5).mapped) (exec (.qunmap o) k) = some false ∧
    retires (.qmap o) m = true ∧ retires (.qsave o) k = true ∧ retires (.qunmap o) k = true ∧ retires (.qload o) m = true := by decide +kernel

/-- EngineStateIsReadAndWritten: a key loaded and cleared, a word of a held unit written and read back. -/
theorem witness_engine_state_completes :
    let o := { dab with p := true }
    let s := (at_ true [(6, 1 + 2 * 2 ^ 8), (7, 77)]).modEng 0 fun e => { e with holds := [256 + 2] }
    let k (a : Word) : State := (at_ true [(6, a), (7, 0x1000)]).writeLocal 0 0 .t noKey 0x1000 64 5
    s.unitHeld 0 1 2 = true ∧ (s.itemWords 0 1 2 0).isSome ∧
    tells (fun t => t.myTile.eng.written.find (((1 * 256 + 2) * 256 + 0) * 65536 + 0)) (exec (.engwr o) s) = some (some 77) ∧
    tells (fun t => (t.actor 0).keys.find 3) (exec (.kload o) (k 3)) = some (some 5) ∧
    tells (fun t => (t.actor 0).keys.find 3) (exec (.kload o) (k (3 + 2 ^ 17))) = some none ∧
    retires (.engwr o) s = true ∧ retires (.engrd o) s = true ∧ retires (.kload o) (k 3) = true := by decide +kernel

/-- PrivilegeIsCheckedAndContextsAreSaved: an area in order for core 1 and for any core, one for another core, and one of another version. -/
theorem witness_save_areas :
    let v := 1 + 2 ^ 10
    areaBad v = false ∧ v / 2 ^ 8 % 4 < 2 ∧ v / 2 ^ 10 % 4 = 1 ∧ areaBad (1 + 2 ^ 9) = false ∧ ¬(1 + 2 ^ 9) / 2 ^ 8 % 4 < 2 ∧ areaBad 2 = true ∧
    retires (.ctxsave { dab with p := true })
      ((at_ true [(6, 0x12), (7, 0x2000)]).modCtx ⟨0, 1, 2⟩ fun k => { k with status := .ready, pc := 0x40 }) = true := by decide +kernel

/-! ## Events that take effect: on each state the event does what its statement says -/

/-- An event and its state, and what is to hold of the state that it leads to. -/
abbrev Effect := Instr × State × (State → Bool)

/-- Every event of a list has its effect. -/
def haveEffect (l : List Effect) : Bool := l.all fun e => (tells e.2.2 (exec e.1 e.2.1)).getD false

/-- CoresWakeReturnSwitchAndTakeNotices: a sleeper, a result, a switch group past 32 words, a context that ages, a trap, a notice, a spent budget, the
timer, and the registers with steps of their own. -/
theorem effects_of_cores :
    let notice := (issue_ id []).modMyCore fun k => { k with npend := 1 <<< 63 ||| 0x7FFFF, tvec := 0x100 }
    haveEffect [
      (.sleepWake 0 0 0, me_ fun k => { k with status := .waiting (.sleep (some 0)) }, fun t => t.me.waits.isNone),
      (.resultReturn 0 0 0 0, me_ fun k => { k with flights := [⟨.g 9, .word 7, 0, 1⟩] }, fun t => t.me.g 9 == 7 && t.me.flights.isEmpty),
      (.contextAged 0 0 0, me_ fun k => { k with status := .ready, waited := 65535 }, fun t => t.me.waited == 65536),
      (.trapEntry 0 0 0, me_ fun k => { k with pend := some ⟨.break, 0, 0, 1, false, false⟩ }, fun t => t.me.trap.ts.intrap),
      (.takeNotice 0 0, notice, fun t => t.me.trap.ts.notice && t.me.pc == 0x100),
      (.handlerBudget 0 0 0, me_ id, fun t => t.me.trap.cause == BitVec.ofNat 6 Cause.handlerBudget.code),
      (.timer 0 0, core_ fun k => { k with ktimer := 0x8000000000000000 }, fun t => t.myCore.npend.getLsbD (noticeBit .timer)),
      (.ktimerWrite 0 0 0 5, me_ id, fun t => t.myCore.ktimer == 5),
      (.npendClear 0 0 0 1, core_ fun k => { k with npend := 3 }, fun t => t.myCore.npend == 2),
      (.fmodeWrite 0 0 0 3, me_ id, fun t => t.me.sys.fmode == 3),
      (.freqLockWrite 0 0 0 0, (tile_ id).modClk 0 fun k => { k with lock := true, depth := 1 }, fun t => !t.myTile.clk.lock)] = true := by
  decide +kernel

/-- MatrixCopyAndStreamStepsPerform, QuiresAreReachedArriveAndTurn: a round of one element, a transfer's end, one that its channel was rebuilt
without, a command's end and one that its queue was rebuilt without, an element read, a turn of a quire, the vector unit's arrival. -/
theorem effects_of_engines :
    let tr : Transfer := { ident := 1, snap := [(2, 1), (3, 1), (4, 1), (5, 1), (14, 6 + 6 * 2 ^ 4), (1, 0x400), (0, 0x200)], rnd := 1, bkey := 0
                           by_ := ⟨0, 0⟩, flags := 0, voided := false, cancel := false, bytes := 0 }
    let m : MCmd := { ident := 1, op := .mclr, mod := 0, dd := 0, da := 0, db := 0, ctx := 0, live := true, cancel := false, bkey := 0, rnd := 1 }
    let ch (f : Channel → Channel) : State := (at_ true []).modChannel 0 3 f
    let mq (f : MQueue → MQueue) : State := (at_ true []).modMq 0 0 f
    let q (banks : Sparse Nat) : Quire := { (at_ false []).quire 0 0 with
      en := true, leaf := 128, depth := 2, dmax := 1, parts := 0x2001, banks := banks, marks := [(0, [[]])] }
    let s (banks : Sparse Nat) : State := (at_ false []).modQuire 0 0 fun _ => q banks
    (s []).vectorDue 0 0 = true ∧
    haveEffect [
      (.copyRound 0 3, (ch fun k => { k with queue := [tr] }).writeLocal 0 0 .t noKey 0x200 2 0x1234,
        fun t => t.readLocal 0 0 .t noKey 0x400 2 == 0x1234 && (t.channel 0 3).ending.isSome),
      (.copyTransferComplete 0 3, ch fun k => { k with queue := [tr], ending := some ⟨0, 0⟩ }, fun t => (t.channel 0 3).done == 2),
      (.copyTransferComplete 0 3, ch fun k => { k with dropped := [tr] }, fun t => (t.channel 0 3).dropped.isEmpty),
      (.matrixCommandComplete 0 0, mq fun k => { k with cmds := [m], ending := some ⟨0, 0⟩ }, fun t => t.myCore.mq.done == 2),
      (.matrixCommandComplete 0 0, mq fun k => { k with dropped := [(m, 1)] }, fun t => t.myCore.mq.dropped.isEmpty && t.me.sys.mstat == 1),
      (.streamElementRead 0 0 0, bound_ (bind_ false 0 []), fun t => match t.bindingAt 0 0 0 with | some b => b.next == 1 | none => false),
      (.quireTurn 0 0, s [(0, 1), (13, 1)], fun t => (t.quire 0 0).lp == 1),
      (.vectorUnitArrival 0 0, s [], fun t => (t.quire 0 0).bank 13 == 1)] = true := by decide +kernel

/-- ControlItemsHoldResumeAbandonAndCancel: holds of the tile's engines and of the module's, their release, a resumption, an abandonment and a
cancellation. -/
theorem effects_of_control_items :
    let f (k : Channel) : Channel := { k with fault := some (0, .xlateMiss), queue := [
      { ident := 1, snap := [], rnd := 1, bkey := 0, by_ := ⟨0, 0⟩, flags := 0, voided := false, cancel := false, bytes := 0 }] }
    let s : State := (at_ true []).modChannel 0 7 f
    haveEffect [
      (.engHold 0 1 7, s, fun t => t.unitHeld 0 1 7), (.engHold 0 9 0x81, s, fun t => t.moduleHeld 9 0x81),
      (.engRelease 0 1 7, s.modEng 0 fun e => { e with holds := [256 + 7] }, fun t => !t.unitHeld 0 1 7),
      (.engResume 0 1 7 0, s, fun t => (t.channel 0 7).fault.isNone), (.engAbandon 0 1 7, s, fun t => (t.channel 0 7).ending.isSome),
      (.engCancel 0 1 7, s, fun t => (t.channel 0 7).queue.all (·.cancel))] = true := by decide +kernel

/-- WalkersDispatchStealAndReport: a dispatch, a claim answered and one at the limit of the items in flight, a steal refused and answered, its
answer, a notice and a report. -/
theorem effects_of_walkers :
    let u : Cur := ⟨0, 1, 2⟩
    let s (p : Piece) (cl : List (Nat × Bool)) (net : List Msg) : State :=
      { ((at_ true []).modWalker 0 1 fun w => { w with
          piece := some p, claims := cl, open_ := [⟨1, 4, 2, 0, false, ⟨0, 0⟩, none⟩] }).modCtx u fun k => { k with
          status := .waiting .claim, handler := .item 1 (some 0) } with net := net }
    let ask : Msg := .stealAsk 0 1 ⟨⟨0, 2⟩, 0, none, none⟩
    let limit : Piece := { piece_ with flying := [(0, ⟨3, none⟩)] }
    limit.sig.limit ≤ limit.flying.length ∧
    haveEffect [
      (.walkerDispatch 0 1, s piece_ [] [], fun t => match (t.walker 0 1).piece with | some p => p.next == 1 | none => false),
      (.walkerArbiterStep 0 1, s piece_ [(2, false)] [], fun t => (t.walker 0 1).claims.isEmpty && (t.ctx u).handler == .item 1 (some 0)),
      (.walkerArbiterStep 0 1, s limit [(2, false)] [], fun t => !(t.walker 0 1).claims.isEmpty),
      (.walkerArbiterStep 0 1, s { piece_ with next := 4 } [] [ask], fun t => t.net == [.stealAnswer 0 2 none 4 none]),
      (.stealAnswerArrival 0, { (at_ true []).modWalker 0 1 (fun w => { w with asking := some none }) with
        net := [.stealAnswer 0 1 none 0 (some piece_)] }, fun t => (t.walker 0 1).piece.isSome && (t.walker 0 1).asking.isNone),
      (.retirementReport 0, s piece_ [] [.retire 0 ⟨0, 1⟩ 1 2 0 none], fun t => (t.walker 0 1).open_.isEmpty)] = true := by decide +kernel

/-- PortsQueueFireAndStep, MailsAreTakenAnsweredAndNoticed: tokens to a bound tag and to a link that is up and down, a slot, a firing; a mail taken,
refused and turned away, its answer, a notice and a lapse. -/
theorem effects_of_ports :
    let s (net : List Msg) : State := { (tile_ id).modPort 0 (fun e => { e with mails := [(4, { entry := 0x100, valid := true, budget := 0 })] }) with
      net := net, tags := [(0x200000, 0)] }
    let ready : State := (tile_ id).modPort 0 fun e => { e with inputs := [(2, { InPort.reset with
      arc := true, bound := true, auto := true, entry := 0x100, queue := [tok_ .data] })] }
    let src : Sender := ⟨0, 0, 0⟩
    let m (i : Nat) : Msg := .mail 0 0x200000 i src 1 7 false
    let link : Tag := Tag.make 4 4 0
    Tag.linkOf link = some 0 ∧
    haveEffect [
      (.tokenArrival 0, s [.token 0 0x200000 3 (tok_ .data)], fun t => (t.inPort 0 3).queue == [tok_ .data] && t.net.isEmpty),
      (.tokenArrival 0, s [.token 0 link 3 (tok_ .data)], fun t => t.net.isEmpty && (t.link 0).waiting.length + (t.link 0).wire.length != 0),
      (.slotReturn 0, s [.slot 0 0x200000 3 9 2], fun t => (t.outPort 0 3).slots == 1 && t.net.isEmpty),
      (.firingStart 0, ready, fun t => (t.tile 0).port.firing.isSome),
      (.mailArrival 0, s [m 4], fun t => t.net == [.mailAnswer 0 src 0x200000 1 0 false]),
      (.mailArrival 0, s [m 5], fun t => t.net == [.mailAnswer 0 src 0x200000 1 3 false]),
      (.mailArrival 0, (s [m 4]).modPort 0 fun e => { e with frozen := true }, fun t => t.net == [.mailAnswer 0 src 0x200000 1 1 false]),
      (.mailAnswer 0, s [.mailAnswer 0 src 0x200000 1 3 false], fun t => t.me.sender.turned == some 0x200000 && t.net.isEmpty),
      (.mailAnswer 0, s [.mailAnswer 0 src 0x200000 1 1 false], fun t => t.me.sender.listed == some 0x200000),
      (.noticeArrival 0, s [.contextFree 0 src 0x200000], fun t => t.me.sender.notice == some 0x200000),
      (.contextFreeNotice 0, (s []).modPort 0 fun e => { e with refusals := [(src, 0x200000)] }, fun t => t.net == [.contextFree 0 src 0x200000]),
      (.reservationLapse 0 0, (s []).modPort 0 fun e => { e with reservations := [⟨0, 1, src, 0⟩] },
        fun t => (t.tile 0).port.reservations.isEmpty)] = true := by decide +kernel

/-- DramActorsPerformAndAnswer, NodesDuplicatesAndChannelsStep: a read and a write performed, host memory that answers over a port that is up, a
peer that no link reaches, a walk that fails, a rising low mark, an invalidation and its acknowledgement, a spare channel, a lost actor and a
token error. -/
theorem effects_of_actors :
    let s (m : Msg) : State := { (tile_ id).modEth 0 (fun e => { e with linkUp := true }) with
      net := [m], actors := [(0, { DramActor.reset with keys := [(5, 9)] })] }
    let wait := me_ fun k => { k with status := .waiting (.xlate 0 false 0 3) }
    let o : DupAck := { dup := 1, tile := 0, core := 0, who := 16, va := 0, sent := some 0 }
    let y (n : Nat) : State := { (tile_ id).modActor 95 (fun a => { a with dir := [⟨0, 2 ^ 19, 0, [1], [o]⟩] }) with now := n }
    let mark : State := (tile_ id).modXnode 0 fun x => { x with seenMin := some 3, sentMin := some 3 }
    haveEffect [
      (.dramRead 0 0, s (.dramRequest 0 read_), fun t => match t.net with | [.dramReply ..] => true | _ => false),
      (.dramWrite 0 0, s (.dramRequest 0 { read_ with op := 1, data := 7 }), fun t => t.dram.read 9 0 8 == 7),
      (.hostBackingReply 0 [1, 2], s (.backing read_), fun t => match t.net with | [.dramReply ..] => true | _ => false),
      (.hostBackingReply 0 [1, 2], { s (.backing read_) with plat := (tile_ id).plat }, fun t => t.net == [.backing read_]),
      (.hostBackingReply 0 [], s (.backing { read_ with rows := [⟨0, 0, some ⟨0, 0, 2 ^ 44 * 1000 + 0x23, 0⟩, 0⟩] }), fun t => t.net.isEmpty && !t.plat.linkFaults.isEmpty),
      (.translationWalk 0 0 false, wait, fun t => t.me.pend.isSome || t.me.trap.cause != 0),
      (.lowMark 0, mark, fun t => (t.tile 0).eng.xnode.seenMin.isNone),
      (.dupCollapse 95 0, y 100001, fun t => (t.core 0 0).npend.getLsbD (noticeBit .dupCollapse)),
      (.dupAck 0, { y 0 with net := [.invalidated 95 1 0 0 0 16] }, fun t => (t.actor 95).owing.isEmpty),
      (.dupInvalidation 0, { y 0 with net := [.invalidate 95 1 0 0 0 16] }, fun t => ((t.actor 1).collapsed.find 0).isSome),
      (.channelSpareSwap 95 2, y 0, fun t => (t.actor 95).spareUsed),
      (.dramActorLost 95, y 0, fun t => (t.actor 95).lost),
      (.tokenPoisoned 7 false, y 0, fun t => t.dram.poison.contains 7)] = true := by decide +kernel

/-- MigrationsFreezeSealRebindAndClose: a window that is over, a migration's freeze, quiescence, move and end, what its stub sends on, a seam and its
acknowledgement, and a probe. -/
theorem effects_of_migrations :
    let m (n : Nat) : Migration := { step := n, src := 0, dst := 1, tag := 0x200000, debts := [], sent := [], seams := [], by_ := none }
    let run : Choice := { choice_ with tiles := [⟨0, 0, 0, 0, 0, false, false⟩] }
    let live (y : Tile) : Tile := { y with place := { y.place with live := true, working := true } }
    let s (n : Nat) (net : List Msg) : State :=
      { (((tile_ id).modTile 1 live).modRebal 3 fun r => { r with migration := some (m n) }).modChase 3 (fun c => { c with run := some run }) with
        net := net, tags := [(0x200000, 0)] }
    let w : State := (((tile_ id).modChase 3 fun c => { c with run := some run }).modTile 0 fun y => { y with gauge := { y.gauge with
      window := 4, occ := 9 } }).modRebal 3 fun r => { r with word := 0 }
    haveEffect [
      (.rebalancerWindow 3 4, w, fun t => (t.rebal 3).seen == 4),
      (.migrationFreeze 3, s 1 [], fun t => (t.tile 0).port.frozen && ((t.rebal 3).migration.map (·.step)) == some 2),
      (.migrationQuiesced 3, s 2 [], fun t => ((t.rebal 3).migration.map (·.step)) == some 4),
      (.migrationRebind 3, s 4 [], fun t => t.tileOf 0x200000 == some 1 && (t.tile 0).port.stub == some ⟨1, 0x200000⟩),
      (.stubClose 3, s 7 [], fun t => (t.rebal 3).migration.isNone && (t.tile 0).place.chase.isNone),
      (.stubForward 0, { (tile_ id).modPort 0 (fun e => { e with stub := some ⟨1, 0x200000⟩ }) with net := [.slot 0 0x200000 4 9 2] },
        fun t => t.net == [.slot 1 0x200000 4 9 2]),
      (.seamArrival 0, s 4 [.seam 0 0x200000 2 0x200001 5 none], fun t => t.net == [.seamAck 0x200001 5]),
      (.seamAck 0, (s 4 [.seamAck 0x200000 5]).modOut 0 5 fun p => { p with seamed := true }, fun t => !(t.outPort 0 5).seamed),
      (.probeStep 0, (tile_ id).modIn 0 2 fun d => { d with arc := true, src := some (0x200001, 0), queue := [tok_ .probe] },
        fun t => (t.tile 0).port.probed)] = true := by decide +kernel

/-- GalleysAreKickedAgedAndAccepted, GalleyCommandsCompleteAndChasesRollBack: a kick, a notice to the service tile, an acceptance that waited for room,
commands that complete and one that waits for an earlier one, a rollback of a chase that runs nothing, and a reservation that is over. -/
theorem effects_of_galleys :
    let p (op i : Nat) : Packet := ⟨BitVec.ofNat 32 i, (1 : Byte) :: List.replicate 63 0 |>.set 0 (BitVec.ofNat 8 op)⟩
    let c (i : BitVec 32) (k : BitVec 16) : OpenCmd := ⟨9, i, k, 0, 0x1000, 0⟩
    let s (q : Packet) (k : BitVec 16) : State := ((tile_ id).modGalleys fun g => { g with open_ := [c 0 k, c 1 k] }).writeLocal 0 0 .t noKey
      0x1000 64 (natOfBytes q.bytes)
    let y := ({ tile_ id with tags := [(0x200000, 0)] }).modGalleys fun g => { g with queues := [(1, [9])], serviceTags := [(1, 0x200000)] }
    let left (t : State) : List (BitVec 32) := t.galleys.open_.map OpenCmd.index
    haveEffect [
      (.kick 9 5, (tile_ id).modGalleys fun g => { g with kicks := [(9, 5)] }, fun t => (t.galley 9).tail == 5 && t.galleys.kicks.isEmpty),
      (.kickPending 1, y, fun t => (t.core 0 3).npend.getLsbD (noticeBit .kickPending)),
      (.packetAccept 40, y.modSlot 40 fun k => { k with pendRec := some ⟨8, 40, 0, 0, 0⟩ }, fun t => (t.slotAt 40).pendRec.isNone),
      (.galleyNop 9 (p 0 0), s (p 0 0) 0, fun t => left t == [1]), (.galleyNop 9 (p 9 0), s (p 9 0) 0x8000, fun t => left t == [1]),
      (.impose 9 (p 1 0), s (p 1 0) 0, fun t => left t == [1]), (.input 9 (p 2 0), s (p 2 0) 0, fun t => left t == [1]),
      (.colophon 9 (p 3 0), s (p 3 0) 0, fun t => left t == [1]), (.swap 9 (p 4 0), s (p 4 0) 0, fun t => left t == [1]),
      (.shrink 9 (p 5 0), s (p 5 0) 0, fun t => left t == [1]), (.release 9 (p 6 0), s (p 6 0) 0, fun t => left t == [1] && (t.chase 0).ended),
      (.barrier 9 (p 7 0), s (p 7 0) 0, fun t => left t == [1]), (.barrier 9 (p 7 1), s (p 7 1) 0, fun t => left t == [0, 1]),
      (.rollback 0, (tile_ id).modChase 0 fun c => { c with struck := true }, fun t => !(t.chase 0).struck),
      (.foldReservationLapse 0, (tile_ id).modChase 0 fun c => { c with reserved := [1] }, fun t => (t.chase 0).reserved.isEmpty)] = true := by
  decide +kernel

/-- ClocksStepAndPowerIsKept: load shared, a watchdog, steps down and up, an alarm and its end, a clamp, a trip, gates and sleep, the steward, a cap,
holdover and the time tokens, and the errors of a tile. -/
theorem effects_of_clocks :
    let s (f : TileClock → TileClock) : State := { (tile_ fun y => { y with place := { y.place with chase := some 3 } }).modClk 0 f with
      now := 2000000000000 }
    let w (raised : Bool) : Watch := { counted := 300000, at_ := 0, slowed := false, raised := raised }
    let power (f : Power → Power) : State := (s id).modPower f
    haveEffect [
      (.loadShareTick 0, s id, fun t => (t.tile 0).clk.sharedAt == t.now),
      (.watchdog 0 1, s fun k => { k with watch := [(1, w false)] }, fun t => (t.core 0 0).npend.getLsbD (noticeBit .watchdog)),
      (.stepChange 0, s fun k => { k with step := 8 }, fun t => (t.tile 0).clk.step == 7),
      (.stepChange 0, s fun k => { k with step := 6 }, fun t => (t.tile 0).clk.step == 7),
      (.alarmThrottle .external, s id, fun t => t.plat.power.throttled && (t.tile 0).clk.thr),
      (.alarmThrottle (.thermal 95), s id, fun t => t.plat.power.throttled && (t.tile 0).clk.thr),
      (.alarmThrottle (.thermal 94), s id, fun t => !t.plat.power.throttled),
      (.throttleRelease, power fun p => { p with throttled := true }, fun t => !t.plat.power.throttled),
      (.currentClamp 0 3001, s id, fun t => (t.tile 0).clk.step == 6),
      (.thermalTrip 105, (s id).modRoot fun r => { r with phase := .released }, fun t => t.plat.power.tripped && t.tiles.isEmpty),
      (.ballast 0, s id, fun t => (t.tile 0).clk.ballastUntil == t.now + 2000),
      (.coreClockGate 0 1, (s id).modCore 0 1 fun k => { k with issue := { k.issue with idle := 64 } }, fun t => (t.core 0 1).issue.gated),
      (.tileWake 0, s fun k => { k with asleep := true }, fun t => !(t.tile 0).clk.asleep),
      (.stewardHeartbeat, power fun p => { p with stewardRunning := true, hung := true }, fun t => !t.plat.power.hung),
      (.stewardHung, power fun p => { p with stewardRunning := true }, fun t => t.plat.power.hung),
      (.zoneCapSet 0 5 2000 0, power fun p => { p with stewardRunning := true }, fun t => (t.tile 0).clk.zcap == 5 && (t.tile 0).clk.clamp == 2000),
      (.clockHoldover 0, s fun k => { k with lock := true, depth := 1, src := 1 }, fun t => (t.tile 0).clk.hold),
      (.timePortLoss, { s id with plat := { (s id).plat with time := { (s id).plat.time with port := some 0 } } }, fun t => t.plat.time.freeRunning),
      (.edgeTimeMasterTick, s id, fun t => t.plat.time.lastToken == t.now),
      (.internalError 0 1 2, s id, fun t => (t.core 0 1).npend.getLsbD (noticeBit .machineCheck)),
      (.tileLost 0, s id, fun t => !(t.tile 0).place.live && (t.chases.get Chase.reset 3).struck),
      (.softError 0 0 0 7 true, s id, fun t => (t.tile 0).t.bad == [7])] = true := by decide +kernel

/-- RootOfTrustBootsAndAnswers, EthernetPortsCarryFramesAndRings, LinksRetryAndJtagReaches: an IDENTITY, a WRITE that is acknowledged, frames that are
counted, a pause, a flit, a failed lane, and the JTAG instructions. -/
theorem effects_of_the_platform :
    let s := ports_ .released
    let f := frame_ 0 5 (bytesOfNat 8 1)
    let c : State := ({ chase_ [] with plat := s.plat }).modChase 0 fun c => { c with ccb := some 0x100 }
    let e : EthFrame := { mac := 5, vlan := none, prio := 0, bytes := List.replicate 60 0, time := 0 }
    haveEffect [
      (.identity 0 f, s, fun t => t.plat.sent.map (·.op) == [5]),
      (.bileelWrite 0 (frame_ 1 1 [7]), s, fun t => (t.tile 0).place.tasks.length == 1),
      (.bileelWrite 0 (frame_ 1 1 [7]), c, fun t => t.dram.read 8 0 1 == 7 && t.plat.sent.length == 1),
      (.bileelAck 0 { frame_ 1 7 [] with ack := 3 }, s, fun t => ((t.eth 0).session 1).acked == 3),
      (.ingestFrame 0 e, s, fun t => (t.eth 0).counters.get 0 3 == 1), (.droppedFrame 0 100, s, fun t => (t.eth 0).counters.get 0 1 == 1),
      (.pfcReceived 0 1 [5], s, fun t => (t.eth 0).pausedTo.get 0 0 != 0),
      (.pauseResume 0 2, s.modEth 0 fun e => { e with pausing := [(2, 0)] }, fun t => ((t.eth 0).pausing.find 2).isNone),
      (.portLinkUp 1, s, fun t => (t.eth 1).linkUp), (.laneFailure 15 2, s, fun t => (t.link 15).failed == [2]),
      (.testLogicReset, s, fun t => t.plat.jtag.ir == 1), (.bypass true, s, fun t => t.plat.jtag.ir == 0xFF),
      (.samplePreload [1], s, fun t => t.plat.jtag.cells == [1]), (.extest [1], s, fun t => t.plat.jtag.drive),
      (.dbgreq 1, s, fun t => t.plat.root.debug == 1), (.dbgresp [] [], s, fun t => t.plat.jtag.out == [3]),
      (.trace 0 0 0, s.modRoot fun r => { r with debug := 1 }, fun t => t.plat.jtag.ir == 0x30),
      (.halt 0 0 0, s.modRoot fun r => { r with debug := 2 }, fun t => (t.core 0 0).issue.halted)] = true := by decide +kernel

end Sys2Proof.Tests
end

section
/-! The arithmetic instructions (R141 to R144, R155 to R159): what the model's word operations come to as numbers and as bits, and from it
the results of every instruction. -/

namespace Sys2Proof.Machine

/-! ## Carrying out -/

/-- An instruction that computes one register and may run completes with the value of its computation in d. -/
theorem meaning_compute {s : State} {use : Use} {o : Opnd} {f : State → Word} {v : Word} (h : s.mayRun use) (hv : f s = v) :
    meaning o use (compute o f) s = completes o use s (s.wg o.d.toNat v) := by
  rw [meaning_completes o _ h rfl, compute, hv, dn]

/-- An instruction that computes a long-latency result and may run completes with it in flight to d (R136). -/
theorem meaning_computeLong {s : State} {use : Use} {o : Opnd} {f : State → Word} {v : Word} (h : s.mayRun use) (hv : f s = v) :
    meaning o use (computeLong o f) s = completes o use s (s.lg o.d.toNat (.word v) o.len) := by
  rw [meaning_completes o _ h rfl, computeLong, hv, dn]

/-- A division by a divisor that is not zero completes with its long-latency result. -/
theorem meaning_divided {s : State} {use : Use} {o : Opnd} {q : Word → Word → Word} {v : Word} (h : s.mayRun use)
    (hy : s.rg (formY o) ≠ 0) (hv : q (s.rg (formX o)) (s.rg (formY o)) = v) :
    meaning o use (divided o q) s = completes o use s (s.lg o.d.toNat (.word v) o.len) := by
  have hb : divided o q s = computeLong o (fun _ => v) s := by simp only [divided, if_neg hy, hv]
  rw [meaning_completes o _ h (by rw [hb]; rfl), hb]; rfl

/-- A division by zero traps with the dividend (R156). -/
theorem meaning_divided_zero {s : State} {use : Use} {o : Opnd} (q : Word → Word → Word) (h : s.mayRun use) (hy : s.rg (formY o) = 0) :
    meaning o use (divided o q) s = traps o s .divideZero (s.rg (formX o)) :=
  meaning_traps o _ h (by simp only [divided, if_pos hy])

/-! ## Sums, shifts and comparisons as numbers (R141, R142, R144, R158) -/

section Numbers

variable {x y : Word} {n : Nat}

theorem Word.sub_eq_ofInt : x - y = BitVec.ofInt 64 (x.toInt - y.toInt) := by
  rw [Int.sub_eq_add_neg, BitVec.ofInt_add, BitVec.ofInt_neg, BitVec.ofInt_toInt, BitVec.ofInt_toInt, BitVec.sub_eq_add_neg]

theorem Word.neg_eq_ofInt : -x = BitVec.ofInt 64 (-x.toInt) := by rw [BitVec.ofInt_neg, BitVec.ofInt_toInt]

theorem Word.add_wordI_eq_ofInt (i : Int) : x + wordI i = BitVec.ofInt 64 (x.toInt + i) := by
  rw [BitVec.ofInt_add, BitVec.ofInt_toInt, wordI]

theorem Word.shiftLeft_eq_ofNat : x <<< n = BitVec.ofNat 64 (x.toNat * 2 ^ n) :=
  BitVec.eq_of_toNat_eq (by rw [BitVec.toNat_shiftLeft, BitVec.toNat_ofNat, Nat.shiftLeft_eq])

theorem Word.ushiftRight_eq_ofNat : x >>> n = BitVec.ofNat 64 (x.toNat / 2 ^ n) := by
  rw [← Nat.shiftRight_eq_div_pow, ← BitVec.toNat_ushiftRight, BitVec.ofNat_toNat, BitVec.setWidth_eq]

theorem Word.sshiftRight_eq_ofInt : x.sshiftRight n = BitVec.ofInt 64 (x.toInt / 2 ^ n) := by
  rw [BitVec.sshiftRight_eq, Int.shiftRight_eq_div_pow, Int.natCast_pow, Int.cast_ofNat_Int]

theorem flag_slt : flag (x.slt y) = if x.toInt < y.toInt then 1 else 0 := by
  simp only [flag, BitVec.slt_iff_toInt_lt]

theorem flag_ult : flag (x.ult y) = if x.toNat < y.toNat then 1 else 0 := by
  simp only [flag, BitVec.ult_iff_toNat_lt]

theorem Word.ofNat_ite_toNat (c : Prop) [Decidable c] : BitVec.ofNat 64 (if c then x.toNat else y.toNat) = if c then x else y := by
  split <;> simp

theorem Word.ofInt_ite_toInt (c : Prop) [Decidable c] : BitVec.ofInt 64 (if c then x.toInt else y.toInt) = if c then x else y := by
  split <;> exact BitVec.ofInt_toInt

theorem Word.ite_ult_eq_min : (if x.ult y then x else y) = BitVec.ofNat 64 (min x.toNat y.toNat) := by
  rw [← Word.ofNat_ite_toNat]; congr 1; simp only [BitVec.ult_iff_toNat_lt]; split <;> omega

theorem Word.ite_ult_eq_max : (if x.ult y then y else x) = BitVec.ofNat 64 (max x.toNat y.toNat) := by
  rw [← Word.ofNat_ite_toNat]; congr 1; simp only [BitVec.ult_iff_toNat_lt]; split <;> omega

theorem Word.ite_slt_eq_min : (if x.slt y then x else y) = BitVec.ofInt 64 (min x.toInt y.toInt) := by
  rw [← Word.ofInt_ite_toInt]; congr 1; simp only [BitVec.slt_iff_toInt_lt]; split <;> omega

theorem Word.ite_slt_eq_max : (if x.slt y then y else x) = BitVec.ofInt 64 (max x.toInt y.toInt) := by
  rw [← Word.ofInt_ite_toInt]; congr 1; simp only [BitVec.slt_iff_toInt_lt]; split <;> omega

theorem Word.abs_eq_ofNat : (if x.msb then -x else x) = BitVec.ofNat 64 x.toInt.natAbs := by
  rw [← BitVec.ofInt_natCast, BitVec.msb_eq_toInt]
  simp only [decide_eq_true_eq]
  split
  · rw [Int.ofNat_natAbs_of_nonpos (by omega), BitVec.ofInt_neg, BitVec.ofInt_toInt]
  · rw [Int.natAbs_of_nonneg (by omega), BitVec.ofInt_toInt]

theorem Word.lea_eq_ofInt (i : Int) : x + y <<< n + wordI i = BitVec.ofInt 64 ((x.toNat : Int) + y.toNat * 2 ^ n + i) := by
  have hy : y <<< n = BitVec.ofInt 64 ((y.toNat : Int) * 2 ^ n) := by
    rw [Word.shiftLeft_eq_ofNat, ← BitVec.ofInt_natCast, Int.natCast_mul, Int.natCast_pow, Int.cast_ofNat_Int]
  have hx : x = BitVec.ofInt 64 (x.toNat : Int) := by rw [BitVec.ofInt_natCast, BitVec.ofNat_toNat, BitVec.setWidth_eq]
  rw [BitVec.ofInt_add, BitVec.ofInt_add, ← hx, ← hy, wordI]

/-! ## Products, quotients and extensions (R143, R155, R156) -/

theorem Word.mul_eq_ofInt : x * y = BitVec.ofInt 64 (x.toInt * y.toInt) := by
  rw [BitVec.ofInt_mul, BitVec.ofInt_toInt, BitVec.ofInt_toInt]

theorem Word.sdiv_eq_ofInt : x.sdiv y = BitVec.ofInt 64 (x.toInt.tdiv y.toInt) :=
  BitVec.eq_of_toInt_eq (by rw [BitVec.toInt_sdiv, BitVec.toInt_ofInt])

theorem Word.srem_eq_ofInt : x.srem y = BitVec.ofInt 64 (x.toInt.tmod y.toInt) := by
  rw [← BitVec.toInt_srem, BitVec.ofInt_toInt]

end Numbers

/-- The sign extension of the low `n` bytes is that of the bit vector of their bits. -/
theorem signExt_eq_signExtend (n : Nat) (x : Word) : signExt n x = (x.setWidth (8 * n)).signExtend 64 := by
  rw [signExt, wordI, BitVec.signExtend, BitVec.toInt_eq_toNat_cond, BitVec.toNat_setWidth, signedOf]

theorem zeroExt_eq_setWidth (n : Nat) (x : Word) : zeroExt n x = (x.setWidth (8 * n)).setWidth 64 :=
  BitVec.eq_of_toNat_eq (by rw [zeroExt, word, BitVec.toNat_ofNat, BitVec.toNat_setWidth, BitVec.toNat_setWidth, Nat.pow_mul])

theorem signExt_mul (x y : Word) : signExt 4 (x * y) = (x.setWidth 32 * y.setWidth 32 : BitVec 32).signExtend 64 := by
  rw [signExt_eq_signExtend, BitVec.setWidth_mul _ _ (by omega)]

/-! ## Counts and the reversal of bits (R157) -/

theorem clz64_le (x : Word) : clz64 x ≤ 64 := by unfold clz64; split <;> omega

theorem clz64_add_log2 {x : Word} (hx : x ≠ 0) : x.toNat ≠ 0 ∧ clz64 x + x.toNat.log2 = 63 := by
  have hx0 : x.toNat ≠ 0 := fun h => hx (BitVec.eq_of_toNat_eq h)
  have hl : x.toNat.log2 < 64 := (Nat.log2_lt hx0).2 x.isLt
  exact ⟨hx0, by rw [clz64, if_neg hx]; omega⟩

theorem toNat_lt_of_clz64 (x : Word) : x.toNat < 2 ^ (64 - clz64 x) := by
  by_cases hx : x = 0
  · subst hx; decide
  · have ⟨_, hl⟩ := clz64_add_log2 hx
    rw [show 64 - clz64 x = x.toNat.log2 + 1 by omega]
    exact Nat.lt_log2_self

theorem le_toNat_of_clz64 (x : Word) (h : clz64 x < 64) : 2 ^ (63 - clz64 x) ≤ x.toNat := by
  have ⟨hx0, hl⟩ := clz64_add_log2 (x := x) (by rintro rfl; exact absurd h (by decide))
  rw [show 63 - clz64 x = x.toNat.log2 by omega]
  exact Nat.log2_self_le hx0

/-- Either every bit is clear and the count is 64, or the count is the number of the first bit that is set. -/
theorem ctz64_cases (x : Word) : (ctz64 x = 64 ∧ ∀ i, i < 64 → x.getLsbD i = false) ∨
    (ctz64 x < 64 ∧ x.getLsbD (ctz64 x) = true ∧ ∀ i, i < ctz64 x → x.getLsbD i = false) := by
  unfold ctz64
  cases h : (List.range 64).find? fun i => x.getLsbD i with
  | none => exact .inl ⟨rfl, by simpa using List.find?_range_eq_none.1 h⟩
  | some n =>
    obtain ⟨hn, hlt, hlow⟩ := List.find?_range_eq_some.1 h
    exact .inr ⟨List.mem_range.1 hlt, hn, by simpa using hlow⟩

/-- The number of elements that pass a test is the sum of the test's bits. -/
theorem length_filter_eq_sum {α : Type} (p : α → Bool) (l : List α) : (l.filter p).length = (l.map fun a => (p a).toNat).sum := by
  induction l with
  | nil => rfl
  | cons a l ih => cases h : p a <;> simp [h, ih, Nat.add_comm]

theorem popc64_eq_sum (x : Word) : popc64 x = ((List.range 64).map fun i => (x.getLsbD i).toNat).sum := length_filter_eq_sum _ _

/-- A number built from bits, each doubling what stands before it, holds the first bit at its top. -/
theorem testBit_foldl_double (b : Nat → Bool) (n : Nat) : ∀ i, i < n →
    ((List.range n).foldl (fun v i => 2 * v + (b i).toNat) 0).testBit (n - 1 - i) = b i := by
  induction n with
  | zero => intro i h; omega
  | succ n ih =>
    intro i h
    rw [List.range_succ, List.foldl_append]
    simp only [List.foldl]
    obtain rfl | hi := Nat.eq_or_lt_of_le (Nat.lt_succ_iff.1 h)
    · cases b i <;> simp [Nat.testBit_zero]
    · rw [show n + 1 - 1 - i = n - 1 - i + 1 by omega, Nat.testBit_succ, ← ih i hi]
      congr 1
      have := (b n).toNat_lt
      omega

theorem getLsbD_brev64 (x : Word) {i : Nat} (h : i < 64) : (brev64 x).getLsbD (63 - i) = x.getLsbD i := by
  rw [brev64, word, BitVec.getLsbD_ofNat, testBit_foldl_double _ 64 i h, decide_eq_true (by omega), Bool.true_and]

/-! ## Fields (R159) -/

theorem getLsbD_fieldMask (p l i : Nat) : (fieldMask p l).getLsbD i = decide (i < 64 ∧ p ≤ i ∧ i < p + l) := by
  rw [fieldMask, word, BitVec.getLsbD_ofNat, Nat.testBit_mul_two_pow, Nat.testBit_two_pow_sub_one, ← Bool.decide_and, ← Bool.decide_and]
  exact decide_eq_decide.2 (by omega)

theorem toNat_bfx (a : Word) (p l : Nat) : (bfx a (p, l)).toNat = a.toNat / 2 ^ p % 2 ^ l := by
  refine Nat.eq_of_testBit_eq fun i => ?_
  rw [Nat.testBit_mod_two_pow, Nat.testBit_div_two_pow, BitVec.testBit_toNat, BitVec.testBit_toNat, bfx, BitVec.getLsbD_ushiftRight,
    BitVec.getLsbD_and, getLsbD_fieldMask, Nat.add_comm p i]
  by_cases h : i + p < 64
  · rw [Bool.and_comm]; congr 1; exact decide_eq_decide.2 (by omega)
  · rw [BitVec.getLsbD_of_ge a _ (by omega), Bool.false_and, Bool.and_false]

theorem bfx_eq_ofNat (a : Word) (p l : Nat) : bfx a (p, l) = BitVec.ofNat 64 (a.toNat / 2 ^ p % 2 ^ l) := by
  rw [← toNat_bfx, BitVec.ofNat_toNat, BitVec.setWidth_eq]

theorem bfxs_eq_ite (a : Word) (p l : Nat) : bfxs a (p, l) =
    if 2 ^ (min (p + l) 64 - p - 1) ≤ a.toNat / 2 ^ p % 2 ^ l then
      BitVec.ofInt 64 ((a.toNat / 2 ^ p % 2 ^ l : Nat) - 2 ^ (min (p + l) 64 - p))
    else BitVec.ofNat 64 (a.toNat / 2 ^ p % 2 ^ l) := by
  simp only [bfxs, toNat_bfx, wordI, word]

theorem fieldOf_eq (o : Opnd) (b : Word) : fieldOf o b =
    (if o.ni = 2 then o.imm.toNat % 64 else b.toNat % 64, if o.ni = 2 then o.imm.toNat / 64 % 64 + 1 else b.toNat / 256 % 64 + 1) := by
  unfold fieldOf
  split
  · rfl
  · simp only [bits, Nat.pow_zero, Nat.div_one, Nat.reducePow]

theorem getLsbD_bfi (d a : Word) (p l : Nat) {i : Nat} (h : i < 64) :
    (bfi d a (p, l)).getLsbD i = if p ≤ i ∧ i < p + l then a.getLsbD (i - p) else d.getLsbD i := by
  rw [bfi, BitVec.getLsbD_or, BitVec.getLsbD_and, BitVec.getLsbD_and, BitVec.getLsbD_not, BitVec.getLsbD_shiftLeft, getLsbD_fieldMask]
  by_cases hf : p ≤ i ∧ i < p + l <;> simp [h, hf]

/-! ## The obligations -/

/-- Settles O1: each instruction computes its register, and the laws above say what its word operation comes to. -/
theorem arithmeticInstructionsGiveTheirResults : Obligations.ArithmeticInstructionsGiveTheirResults := by
  unfold Obligations.ArithmeticInstructionsGiveTheirResults
  refine ⟨fun o s h => ?twoOperand, fun o s => ?immediate, fun o s => ?unary, fun o s => ?field⟩
  case twoOperand =>
    exact ⟨meaning_compute h (BitVec.add_def _ _), meaning_compute h Word.sub_eq_ofInt, meaning_compute h rfl, meaning_compute h rfl,
      meaning_compute h rfl, meaning_compute h rfl, meaning_compute h rfl, meaning_compute h Word.shiftLeft_eq_ofNat,
      meaning_compute h Word.ushiftRight_eq_ofNat, meaning_compute h Word.sshiftRight_eq_ofInt, meaning_compute h flag_slt,
      meaning_compute h flag_ult, meaning_compute h Word.ite_ult_eq_min, meaning_compute h Word.ite_ult_eq_max,
      meaning_compute h Word.ite_slt_eq_min, meaning_compute h Word.ite_slt_eq_max⟩
  case immediate =>
    exact ⟨fun h => meaning_compute h (Word.add_wordI_eq_ofInt _), fun h => meaning_compute h rfl, fun h => meaning_compute h rfl,
      fun h => meaning_compute h Word.shiftLeft_eq_ofNat, fun h => meaning_compute h Word.ushiftRight_eq_ofNat,
      fun h => meaning_compute h Word.sshiftRight_eq_ofInt, fun h => meaning_compute h flag_slt, fun h => meaning_compute h rfl⟩
  case unary =>
    refine ⟨fun h => ⟨meaning_compute h rfl, meaning_compute h (signExt_eq_signExtend _ _), meaning_compute h (zeroExt_eq_setWidth _ _),
      ⟨clz64 (s.rg o.a.toNat), meaning_compute h rfl, clz64_le _, toNat_lt_of_clz64 _, le_toNat_of_clz64 _⟩,
      ⟨ctz64 (s.rg o.a.toNat), meaning_compute h rfl, ?ctz⟩, meaning_compute h (congrArg word (popc64_eq_sum _)),
      ⟨brev64 (s.rg o.a.toNat), meaning_compute h rfl, fun _ => getLsbD_brev64 _⟩, meaning_compute h Word.abs_eq_ofNat,
      meaning_compute h Word.neg_eq_ofInt⟩, fun h => meaning_compute h (ite_not _ _ _), fun h => meaning_compute h (Word.lea_eq_ofInt _)⟩
    case ctz =>
      obtain ⟨h64, hlow⟩ | ⟨hlt, hbit, hlow⟩ := ctz64_cases (s.rg o.a.toNat)
      · exact ⟨Nat.le_of_eq h64, fun i hi => hlow i (by omega), fun hlt => by omega⟩
      · exact ⟨Nat.le_of_lt hlt, hlow, fun _ => hbit⟩
  case field =>
    have hf := fieldOf_eq o (s.rg o.b.toNat)
    exact ⟨fun h => ⟨meaning_compute h (hf ▸ bfx_eq_ofNat _ _ _), meaning_compute h (hf ▸ bfxs_eq_ite _ _ _)⟩,
      fun h => ⟨_, meaning_compute h rfl, fun i hi => hf ▸ getLsbD_bfi _ _ _ _ hi⟩⟩

/-- Settles O2: a product or a quotient goes in flight to d, and a divisor of zero traps with the dividend. -/
theorem productsAndQuotientsGoInFlight : Obligations.ProductsAndQuotientsGoInFlight := by
  unfold Obligations.ProductsAndQuotientsGoInFlight
  intro o s h
  refine ⟨meaning_computeLong h Word.mul_eq_ofInt, meaning_computeLong h rfl, meaning_computeLong h rfl,
    meaning_computeLong h (signExt_mul _ _), fun hy => ?quotient, fun hy => ?zero⟩
  case quotient =>
    exact ⟨meaning_divided h hy Word.sdiv_eq_ofInt, meaning_divided h hy Word.srem_eq_ofInt, meaning_divided h hy BitVec.udiv_def,
      meaning_divided h hy BitVec.umod_def⟩
  case zero =>
    exact ⟨meaning_divided_zero _ h hy, meaning_divided_zero _ h hy, meaning_divided_zero _ h hy, meaning_divided_zero _ h hy⟩

end Sys2Proof.Machine
end

section
/-! Event waits, the class, frequency requests, the time and sleep (R163, R168, R169, R175 to R177): what a body comes to under the
registers of an event wait, what taking a record leaves alone, and when a sleep is over. -/

namespace Sys2Proof.Machine

/-! ## Carrying out -/

/-- An instruction that may be carried out completes in the state that its effect comes to. -/
theorem meaning_of_done {s t : State} {use : Use} {body : State → State × Act} (o : Opnd) (h : s.mayRun use) (hb : body s = (t, .done)) :
    meaning o use body s = completes o use s t := by
  rw [meaning_completes o body h (by rw [hb]), hb]

/-- An instruction that may be carried out waits in the state that its effect comes to. -/
theorem meaning_of_wait {s t : State} {use : Use} {body : State → State × Act} {w : Wait} (o : Opnd) (h : s.mayRun use)
    (hb : body s = (t, .wait w)) : meaning o use body s = waits s t w := by
  rw [meaning_waits o body h (by rw [hb]), hb]

/-- An instruction that may be carried out and whose effect stalls. -/
theorem meaning_stalls_of_body {s : State} {use : Use} (o : Opnd) (body : State → State × Act) (h : s.mayRun use)
    (hd : (body s).2 = .stall) : meaning o use body s = .next (s.modMe fun k => { k with stalled := true }) := by
  simp only [meaning, runGang, h.1, execOne_of_mayRun h, hd, finish, State.modMe]

/-- Under registers that may be used and none of which is a source, an effect is what it is. -/
theorem withUse_of_no_source {s : State} {writes : List Nat} (body : State → State × Act) (h : s.mayRun (.g [] writes)) :
    withUse (.g [] writes) body s = body s := by
  have noneTaken : ∀ t : State, t.consume s.cur (.g [] writes) = t := fun _ => rfl
  obtain ⟨-, hfree, hgate⟩ := h
  rw [withUse, hfree, hgate, if_neg Bool.false_ne_true]
  simp only [noneTaken]
  split <;> rfl

theorem withUse_of_blocked {s : State} {use : Use} (body : State → State × Act) (h : s.me.blocked use = true) :
    withUse use body s = (s, .stall) := if_pos h

/-- Two uses of registers without a source complete an instruction alike. -/
theorem completes_of_no_source (o : Opnd) (writes : List Nat) (s t : State) :
    completes o .none s t = completes o (.g [] writes) s t := rfl

/-! ## The registers of an event wait (R163) -/

/-- Register `n`, d or d + 1 of an event wait, is a bound stream register: g0 as d names none. -/
def State.eventBound (s : State) (d n : Nat) : Bool := d != 0 && (s.myCore.binding s.cur.ctx false n).isSome

theorem eventTrap_of_unbound {s : State} {d : Nat} (h : s.eventBound d d = false) (h' : s.eventBound d (d + 1) = false) :
    s.eventTrap d = none := by
  simp only [State.eventBound] at h h'
  simp [State.eventTrap, List.filter, h, h']

/-- The first bound register of d and d + 1 traps, and the bits above it in the cause's information tell its stream's direction. -/
theorem eventTrap_of_first {s : State} {d n : Nat} (h : ([d, d + 1].filter (s.eventBound d)).head? = some n) :
    ∃ way, s.eventTrap d = some (.trap .streamDirection (streamInfo false n (64 * way))) := by
  have hmap : s.eventTrap d = some (.trap .streamDirection (streamInfo false n (match s.myCore.binding s.cur.ctx false n with
      | some b => if b.write then 0 else 128
      | none => 0))) := congrArg (Option.map _) h
  rw [hmap]
  split
  · split
    · exact ⟨0, rfl⟩
    · exact ⟨2, rfl⟩
  · exact ⟨0, rfl⟩

/-- Where both registers are bound the lower one is reported. -/
theorem eventTrap_of_bound {s : State} {d : Nat} (h : s.eventBound d d = true ∨ s.eventBound d (d + 1) = true) :
    ∃ way, s.eventTrap d = some (.trap .streamDirection (streamInfo false (if s.eventBound d d then d else d + 1) (64 * way))) := by
  refine eventTrap_of_first ?_
  cases hd : s.eventBound d d with
  | true => simp [List.filter, hd]
  | false =>
    have hd' := h.resolve_left (by simp [hd])
    simp [List.filter, hd, hd']

/-- The register field of a stream cause's information. -/
theorem streamInfo_register {n : Nat} (h : n < 64) (way : Nat) : (streamInfo false n (64 * way)).toNat % 64 = n := by
  rw [streamInfo, word, BitVec.toNat_ofNat, Bool.toNat_false]
  omega

section EventOp

variable {s : State} {o : Opnd} (body : State → State × Act)

theorem eventOp_of_trap {a : Act} (h : s.eventTrap (dn o) = some a) : eventOp o body s = (s, a) := by
  simp only [eventOp, h]

theorem eventOp_of_unbound (h : s.eventTrap (dn o) = none) : eventOp o body s = withUse (useEvent o) body s := by
  simp only [eventOp, h]

/-- An event wait whose registers are neither bound nor in flight is its effect. -/
theorem eventOp_of_mayRun (h : s.eventTrap (dn o) = none) (hm : s.mayRun (useEvent o)) : eventOp o body s = body s :=
  (eventOp_of_unbound body h).trans (withUse_of_no_source body hm)

theorem eventOp_of_blocked (h : s.eventTrap (dn o) = none) (hb : s.me.blocked (useEvent o) = true) :
    eventOp o body s = (s, .stall) :=
  (eventOp_of_unbound body h).trans (withUse_of_blocked body hb)

end EventOp

/-! ## The pair of registers that a record goes to -/

/-- Registers d and d + 1 of a context written; g0 as d discards both. -/
def State.setPair (s : State) (u : Cur) (d : Nat) (x y : Word) : State :=
  if d = 0 then s else s.modCtx u fun k => (k.setG d x).setG (d + 1) y

/-- The state after the oldest record of a core, before `rest`, has left its queue. -/
def State.popRecord (s : State) (u : Cur) (rest : List Record) : State :=
  s.modCore u.tile u.core fun k => { k with evq := { k.evq with ready := rest } }

theorem takeRecord_eq {s : State} {u : Cur} {d : Nat} {r : Record} {rest : List Record}
    (h : (s.core u.tile u.core).evq.ready = r :: rest) :
    s.takeRecord u d = (s.popRecord u rest).setPair u d r.bits.1 r.bits.2 := by
  simp only [State.takeRecord, h, State.setPair, State.popRecord]

@[simp] theorem State.setPair_cur (s : State) (u : Cur) (d : Nat) (x y : Word) : (s.setPair u d x y).cur = s.cur := by
  unfold State.setPair; split <;> rfl

theorem Ctx.g_setG_pair (k : Ctx) {d : Nat} (h : d ≠ 0) (x y : Word) :
    ((k.setG d x).setG (d + 1) y).g d = x ∧ ((k.setG d x).setG (d + 1) y).g (d + 1) = y := by
  simp [Ctx.g_setG, h]

theorem State.g_setPair (s : State) (u : Cur) {d : Nat} (h : d ≠ 0) (x y : Word) :
    ((s.setPair u d x y).ctx u).g d = x ∧ ((s.setPair u d x y).ctx u).g (d + 1) = y := by
  rw [State.setPair, if_neg h, State.ctx_modCtx, if_pos rfl]
  exact Ctx.g_setG_pair _ h x y

theorem onlyRegisters_setPair (s : State) (u : Cur) (d : Nat) (x y : Word) :
    onlyRegisters s (s.setPair u d x y) u (if d = 0 then [] else [.g d, .g (d + 1)]) := by
  unfold State.setPair
  split
  · exact onlyRegisters_refl s u []
  · refine onlyRegisters_modCtx s u _ _ (fun n => ⟨fun hn => ?_, fun _ => by simp, fun _ => by simp⟩) (by simp) (by simp)
    simp only [List.mem_cons, Dest.g.injEq, List.not_mem_nil, or_false, not_or] at hn
    simp [Ctx.g_setG, hn]

/-- The queues stand as before, since the engines do. -/
theorem State.evq_setPair (s : State) (u : Cur) (d : Nat) (x y : Word) (t c : Nat) :
    ((s.setPair u d x y).core t c).evq = (s.core t c).evq := by
  obtain ⟨-, -, -, ⟨-, hcores⟩, -⟩ := onlyRegisters_setPair s u d x y
  exact (hcores t c).1

/-! ## What an event wait leaves alone -/

/-- Registers d and d + 1 of the context under way hold `x` and `y`, and nothing else of the registers, the memories, the special registers
and what lies outside the tiles has changed. -/
def eventGives (s t : State) (d : Nat) (x y : Word) : Prop :=
  (d ≠ 0 → t.me.g d = x ∧ t.me.g (d + 1) = y) ∧
    keepsRegisters s t s.cur (if d = 0 then [] else [.g d, .g (d + 1)]) ∧ keepsMemory s t ∧ keepsSpecial s t ∧ keepsOutside s t

theorem eventGives_setPair (s : State) (d : Nat) (x y : Word) : eventGives s (s.setPair s.cur d x y) d x y := by
  obtain ⟨hmem, hregs, hspec, -, hout⟩ := onlyRegisters_setPair s s.cur d x y
  refine ⟨fun hd => ?_, hregs, hmem, hspec, hout⟩
  rw [State.me, State.setPair_cur]
  exact State.g_setPair s s.cur hd x y

section PopRecord

variable (s : State) (u : Cur) (rest : List Record)

@[simp] theorem State.popRecord_cur : (s.popRecord u rest).cur = s.cur := rfl

@[simp] theorem State.popRecord_ctx (v : Cur) : (s.popRecord u rest).ctx v = s.ctx v :=
  State.ctx_modCore s _ _ _ (by intro _; rfl) v

@[simp] theorem State.popRecord_evq :
    ((s.popRecord u rest).core u.tile u.core).evq = { (s.core u.tile u.core).evq with ready := rest } := by
  simp [State.popRecord]

/-- A part of a core other than its queue of records is what it was. -/
theorem State.popRecord_core {α : Type} (p : Core → α) (h : ∀ (k : Core) q, p { k with evq := q } = p k) (y c : Nat) :
    p ((s.popRecord u rest).core y c) = p (s.core y c) := State.core_modCore_part p s _ _ _ (fun k => h k _) y c

theorem State.popRecord_localMem (y c : Nat) (sp : Space) : (s.popRecord u rest).localMem y c sp = s.localMem y c sp := by
  cases sp with
  | a => exact State.popRecord_core s u rest (·.a) (fun _ _ => rfl) y c
  | c => exact State.popRecord_core s u rest (·.c) (fun _ _ => rfl) y c
  | w => exact State.popRecord_core s u rest (·.w) (fun _ _ => rfl) y c
  | t | d | x => simp [State.localMem, State.popRecord]

variable {s u rest}

/-- What an event wait gives after a record has left the queue, it gives on the whole. -/
theorem eventGives_of_popRecord {t : State} {d : Nat} {x y : Word} (h : eventGives (s.popRecord u rest) t d x y) :
    eventGives s t d x y := by
  obtain ⟨hpair, hregs, ⟨hlocal, hdram⟩, ⟨hctx, hcore⟩, hout⟩ := h
  have part {α : Type} (p : Core → α) (hp : ∀ (k : Core) q, p { k with evq := q } = p k) (y c : Nat) :=
    State.popRecord_core s u rest p hp y c
  refine ⟨hpair, fun v n => ?regs, ⟨fun y c sp a => ?mem, hdram⟩, ⟨fun v => ?ctx, fun y c => ?core⟩, hout⟩
  case regs => simpa using hregs v n
  case mem => rw [hlocal, State.popRecord_localMem]
  case ctx => simpa using hctx v
  case core =>
    obtain ⟨htvec, hktimer, hnpend, hninfo, hwdesc, hcyc, hfreq⟩ := hcore y c
    exact ⟨htvec.trans (part (·.tvec) (fun _ _ => rfl) y c), hktimer.trans (part (·.ktimer) (fun _ _ => rfl) y c),
      hnpend.trans (part (·.npend) (fun _ _ => rfl) y c), hninfo.trans (part (·.ninfo) (fun _ _ => rfl) y c),
      hwdesc.trans (part (·.wdesc) (fun _ _ => rfl) y c), hcyc.trans (part (·.cyc) (fun _ _ => rfl) y c),
      hfreq.trans (part (·.freqReq) (fun _ _ => rfl) y c)⟩

end PopRecord

/-- Taking the oldest record gives its two words and leaves the later records. -/
theorem takeRecord_gives {s : State} {d : Nat} {r : Record} {rest : List Record} (h : s.myCore.evq.ready = r :: rest) :
    (s.takeRecord s.cur d).myCore.evq = { s.myCore.evq with ready := rest } ∧
      eventGives s (s.takeRecord s.cur d) d r.bits.1 r.bits.2 := by
  rw [takeRecord_eq h]
  refine ⟨?queue, eventGives_of_popRecord (eventGives_setPair (s.popRecord s.cur rest) d _ _)⟩
  case queue =>
    rw [State.myCore, State.setPair_cur, State.evq_setPair]
    exact State.popRecord_evq s s.cur rest

/-! ## Event waits (R168) -/

section EventWaits

variable {s : State} {o : Opnd}

theorem eventWait_stalls (h : s.mayRun .none) (hu : s.eventTrap (dn o) = none) (hb : s.me.blocked (useEvent o) = true) :
    ∀ i ∈ [Instr.waitev o, .pollev o], exec i s = .next (s.modMe fun k => { k with stalled := true }) := by
  have stalls (body : State → State × Act) :
      meaning o .none (eventOp o body) s = .next (s.modMe fun k => { k with stalled := true }) :=
    meaning_stalls_of_body o _ h (by rw [eventOp_of_blocked body hu hb])
  simp only [List.forall_mem_cons]
  exact ⟨stalls _, stalls _, by simp⟩

theorem eventWait_traps (h : s.mayRun .none) {info : Word} (ht : s.eventTrap (dn o) = some (.trap .streamDirection info)) :
    exec (.waitev o) s = traps o s .streamDirection info ∧ exec (.pollev o) s = traps o s .streamDirection info := by
  have trapsFirst (body : State → State × Act) : meaning o .none (eventOp o body) s = traps o s .streamDirection info :=
    meaning_traps o _ h (by rw [eventOp_of_trap body ht])
  exact ⟨trapsFirst _, trapsFirst _⟩

/-- An event wait that may use its registers completes with its effect. -/
theorem eventWait_completes (h : s.mayRun .none) (hu : s.eventTrap (dn o) = none) (hm : s.mayRun (useEvent o))
    {body : State → State × Act} {t : State} (hb : body s = (t, .done)) :
    meaning o .none (eventOp o body) s = completes o (useEvent o) s t := by
  rw [meaning_of_done o h ((eventOp_of_mayRun body hu hm).trans hb)]
  exact completes_of_no_source o _ s t

theorem exec_waitev_of_record (h : s.mayRun .none) (hu : s.eventTrap (dn o) = none) (hm : s.mayRun (useEvent o))
    {r : Record} {rest : List Record} (hq : s.myCore.evq.ready = r :: rest) :
    exec (.waitev o) s = completes o (useEvent o) s (s.takeRecord s.cur (dn o)) :=
  eventWait_completes h hu hm (by simp [hq])

theorem exec_pollev_of_record (h : s.mayRun .none) (hu : s.eventTrap (dn o) = none) (hm : s.mayRun (useEvent o))
    {r : Record} {rest : List Record} (hq : s.myCore.evq.ready = r :: rest) :
    exec (.pollev o) s = completes o (useEvent o) s (s.takeRecord s.cur (dn o)) :=
  eventWait_completes h hu hm (by simp [hq])

theorem exec_waitev_of_none (h : s.mayRun .none) (hu : s.eventTrap (dn o) = none) (hm : s.mayRun (useEvent o))
    (hq : s.myCore.evq.ready = []) : exec (.waitev o) s = waits s s .event :=
  meaning_of_wait o h ((eventOp_of_mayRun _ hu hm).trans (by simp [hq]))

theorem exec_pollev_of_none (h : s.mayRun .none) (hu : s.eventTrap (dn o) = none) (hm : s.mayRun (useEvent o))
    (hq : s.myCore.evq.ready = []) : exec (.pollev o) s = completes o (useEvent o) s (s.setPair s.cur (dn o) 0 0) :=
  eventWait_completes h hu hm (by simp only [hq, List.isEmpty_nil, if_true]; rfl)

end EventWaits

/-! ## Sleep (R175) -/

/-- A sleep on g0 is over with a readable record alone, another also at its deadline. -/
theorem sleepOver_iff (s : State) (u : Cur) (a deadline : Nat) :
    s.sleepOver u (if a = 0 then none else some deadline) = true ↔
      (s.core u.tile u.core).evq.ready ≠ [] ∨ (a ≠ 0 ∧ deadline ≤ s.rtime u.tile) := by
  rw [or_comm]
  by_cases ha : a = 0 <;> simp [State.sleepOver, ha]

section Sleep

variable {s : State} {o : Opnd}

theorem exec_sleep_of_over (h : s.mayRun (.g [an o] []))
    (hover : s.sleepOver s.cur (if an o = 0 then none else some (s.rg (an o)).toNat) = true) :
    exec (.sleep o) s = completes o (.g [an o] []) s s :=
  meaning_of_done o h (if_pos hover)

theorem exec_sleep_of_not_over (h : s.mayRun (.g [an o] []))
    (hover : ¬ s.sleepOver s.cur (if an o = 0 then none else some (s.rg (an o)).toNat) = true) : exec (.sleep o) s =
      waits s (s.consume s.cur (.g [an o] [])) (.sleep (if an o = 0 then none else some (s.rg (an o)).toNat)) :=
  meaning_of_wait o h (if_neg hover)

end Sleep

/-! ## The class and the frequency (R169, R176) -/

section Requests

variable {s : State} {o : Opnd} (h : s.mayRun .none)

include h

theorem exec_prio_in_range (hc : o.imm.toNat ≤ 3) (hcap : o.imm.toNat ≤ s.me.sys.cap.toNat) : exec (.prio o) s =
    completes o .none s (s.modMe fun k => { k with sys := { k.sys with cls := BitVec.ofNat 2 o.imm.toNat } }) :=
  meaning_of_done o h (if_neg (by omega))

theorem exec_prio_out_of_range (hc : 3 < o.imm.toNat ∨ s.me.sys.cap.toNat < o.imm.toNat) :
    exec (.prio o) s = traps o s .priorityRange (BitVec.ofNat 64 (o.imm.toNat + 256 * s.me.sys.cap.toNat)) :=
  meaning_traps o _ h (by simp only [if_pos hc, word])

theorem exec_freqreq : exec (.freqreq o) s = completes o .none s (s.modMyCore fun k => { k with freqReq := o.imm.toNat }) :=
  meaning_completes o _ h rfl

end Requests

/-! ## The obligation -/

/-- Settles O14: an event wait is its trap, its stall or its effect, as its registers allow; the others are their effects. -/
theorem eventWaitsClassRequestTimeAndSleep : Obligations.EventWaitsClassRequestTimeAndSleep := by
  unfold Obligations.EventWaitsClassRequestTimeAndSleep
  refine ⟨fun o s h heven => ⟨fun hd hd' hb => ?stalls, fun hd hd' hm => ⟨fun r rest hq => ?record, fun hq => ?empty⟩,
    fun hbound => ?direction⟩,
    fun o s => ⟨fun h => ?requests, fun h => ?time, fun h => ⟨fun hover => ?awake, fun hover => ?asleep⟩⟩⟩
  case stalls => exact eventWait_stalls h (eventTrap_of_unbound hd hd') hb
  case record =>
    have hu := eventTrap_of_unbound hd hd'
    exact ⟨_, exec_waitev_of_record h hu hm hq, exec_pollev_of_record h hu hm hq, takeRecord_gives hq⟩
  case empty =>
    have hu := eventTrap_of_unbound hd hd'
    refine ⟨exec_waitev_of_none h hu hm hq, _, exec_pollev_of_none h hu hm hq, ?_, eventGives_setPair s _ 0 0⟩
    rw [State.myCore, State.setPair_cur, State.evq_setPair]; rfl
  case direction =>
    obtain ⟨way, ht⟩ := eventTrap_of_bound hbound
    obtain ⟨hwait, hpoll⟩ := eventWait_traps h ht
    exact ⟨_, hwait, hpoll, streamInfo_register (by split <;> omega) way⟩
  case requests => exact ⟨exec_prio_in_range h, exec_prio_out_of_range h, exec_freqreq h⟩
  case time => exact ⟨meaning_compute h rfl, meaning_compute h rfl⟩
  case awake => exact exec_sleep_of_over h ((sleepOver_iff s s.cur _ _).2 hover)
  case asleep => exact exec_sleep_of_not_over h (mt (sleepOver_iff s s.cur _ _).1 hover)

end Sys2Proof.Machine
end

section
/-! Copy channels (R199 to R204): what an instruction on a channel comes to outside a gang, the state in which CPGO has queued a
transfer, and what the reservation of its event entry and the changes of the tile's engines leave alone. -/

namespace Sys2Proof.Machine

/-! ## Channels, outside a gang -/

theorem State.channelOf_of_no_gang {s : State} (h : (s.tile s.cur.tile).gangOf s.cur.core s.cur.ctx = none) (c : Nat) :
    s.channelOf c = c := by
  rw [State.channelOf, State.myTile, h]

/-- An identifier is outstanding if it is not completed and lies before the next one (R202). -/
theorem outstanding_iff (done next n : BitVec 32) : outstanding done next n = true ↔
    ¬ (1 ≤ (done - n).toNat ∧ (done - n).toNat < 2 ^ 31) ∧ (n - done).toNat < (next - done).toNat := by
  simp only [outstanding, below, Bool.and_eq_true, Bool.not_eq_true', ← Bool.decide_and, decide_eq_true_eq, decide_eq_false_iff_not]
  omega

/-- What a change of a tile's engines leaves of a channel, where it leaves the channels alone. -/
theorem State.channel_modEng (s : State) (t : Nat) (f : TileEngines → TileEngines) (hf : ∀ e, (f e).channels = e.channels) (y h : Nat) :
    (s.modEng t f).channel y h = s.channel y h := by
  unfold State.channel
  rw [State.eng_modEng]
  split
  · next hy => rw [hf, hy]
  · rfl

theorem State.channel_modCore (s : State) (t c : Nat) (f : Core → Core) (y h : Nat) : (s.modCore t c f).channel y h = s.channel y h := by
  rw [State.channel, State.tile_modCore_eng, State.channel]

@[simp] theorem State.channel_addQuoins (s : State) (t : Nat) (qs : List Quoin) (y h : Nat) :
    (s.addQuoins t qs).channel y h = s.channel y h := State.channel_modEng s t _ (by intro _; rfl) y h

@[simp] theorem State.channel_modQuire (s : State) (t q : Nat) (f : Quire → Quire) (y h : Nat) :
    (s.modQuire t q f).channel y h = s.channel y h := State.channel_modEng s t _ (by intro _; rfl) y h

@[simp] theorem State.channel_reserveEvent (s : State) (t c y h : Nat) : (s.reserveEvent t c).channel y h = s.channel y h :=
  State.channel_modCore s t c _ y h

theorem State.channel_modChannel_self (s : State) (t h : Nat) (f : Channel → Channel) :
    (s.modChannel t h f).channel t h = f (s.channel t h) := by
  simp [State.channel, State.modChannel]

/-! ## What the engines' bookkeeping leaves alone -/

/-- Nothing but the engines of the tiles and the event queues of the cores has changed. -/
def onlyEnginesAndQueues (s t : State) : Prop :=
  (∀ y c, ∃ q, t.core y c = { s.core y c with evq := q }) ∧ (∀ y, (t.tile y).t = (s.tile y).t ∧ (t.tile y).x = (s.tile y).x) ∧
    keepsOutside s t

theorem onlyEnginesAndQueues_refl (s : State) : onlyEnginesAndQueues s s :=
  ⟨fun y c => ⟨(s.core y c).evq, rfl⟩, fun _ => ⟨rfl, rfl⟩, (onlyRegisters_refl s s.cur []).2.2.2.2⟩

theorem onlyEnginesAndQueues_trans {r s t : State} (h : onlyEnginesAndQueues r s) (g : onlyEnginesAndQueues s t) :
    onlyEnginesAndQueues r t := by
  obtain ⟨hcore, htile, hout⟩ := h
  obtain ⟨hcore', htile', hout'⟩ := g
  refine ⟨fun y c => ?core, fun y => ⟨(htile' y).1.trans (htile y).1, (htile' y).2.trans (htile y).2⟩, ?outside⟩
  case core =>
    obtain ⟨q, hq⟩ := hcore y c
    obtain ⟨q', hq'⟩ := hcore' y c
    exact ⟨q', by rw [hq', hq]⟩
  case outside => simp only [keepsOutside] at hout hout' ⊢; simp [hout, hout']

theorem onlyEnginesAndQueues_modEng (s : State) (t : Nat) (f : TileEngines → TileEngines) : onlyEnginesAndQueues s (s.modEng t f) :=
  ⟨fun y c => ⟨(s.core y c).evq, State.core_modEng s t f y c⟩, fun y => ⟨State.tile_modEng_t s t f y, State.tile_modEng_x s t f y⟩,
    by simp [keepsOutside]⟩

theorem onlyEnginesAndQueues_reserveEvent (s : State) (t c : Nat) : onlyEnginesAndQueues s (s.reserveEvent t c) := by
  refine ⟨fun y d => ?core, fun y => ⟨State.tile_modCore_t s t c _ y, State.tile_modCore_x s t c _ y⟩,
    by simp [keepsOutside, State.reserveEvent]⟩
  case core =>
    rw [State.reserveEvent, State.core_modCore]
    split
    · next hy => obtain ⟨rfl, rfl⟩ := hy; exact ⟨_, rfl⟩
    · exact ⟨(s.core y d).evq, rfl⟩

section Frame

variable {s t : State} (h : onlyEnginesAndQueues s t)

include h

/-- A part of a core other than its event queue is what it was. -/
theorem onlyEnginesAndQueues_core {α : Type} (p : Core → α) (hp : ∀ (k : Core) q, p { k with evq := q } = p k) (y c : Nat) :
    p (t.core y c) = p (s.core y c) := by
  obtain ⟨q, hq⟩ := h.1 y c
  rw [hq, hp]

theorem onlyEnginesAndQueues_ctx (v : Cur) : t.ctx v = s.ctx v :=
  onlyEnginesAndQueues_core h (·.ctx v.ctx) (fun _ _ => rfl) v.tile v.core

theorem onlyEnginesAndQueues_bytes (y c : Nat) (sp : Space) : (t.localMem y c sp).bytes = (s.localMem y c sp).bytes := by
  have ⟨_, htile, _⟩ := h
  cases sp with
  | t => exact congrArg (·.bytes) (htile y).1
  | a => exact onlyEnginesAndQueues_core h (·.a.bytes) (fun _ _ => rfl) y c
  | c => exact onlyEnginesAndQueues_core h (·.c.bytes) (fun _ _ => rfl) y c
  | w => exact onlyEnginesAndQueues_core h (·.w.bytes) (fun _ _ => rfl) y c
  | d => rfl
  | x => exact (htile y).2

theorem keepsMemory_of_onlyEnginesAndQueues : keepsMemory s t := by
  obtain ⟨hdram, -⟩ := h.2.2
  exact ⟨fun y c sp a => by rw [onlyEnginesAndQueues_bytes h], fun a => by rw [hdram]⟩

theorem keepsRegisters_of_onlyEnginesAndQueues (u : Cur) (ds : List Dest) : keepsRegisters s t u ds := fun v n => by
  simp [onlyEnginesAndQueues_ctx h v]

theorem keepsSpecial_of_onlyEnginesAndQueues : keepsSpecial s t := by
  refine ⟨fun v => by simp [onlyEnginesAndQueues_ctx h v], fun y c => ?core⟩
  obtain ⟨q, hq⟩ := h.1 y c
  simp [hq]

end Frame

/-! ## A transfer queued (R202) -/

/-- The first fault of the ranges of a transfer, the source's before the destination's (R201 step 2). -/
def Plan.fault (p : Plan) : Option (Cause × Word) := (p.src.fault p.lens p.total false).or (p.dst.fault p.lens p.total true)

theorem Plan.fault_orElse_fault (p : Plan) : (p.src.fault p.lens p.total false <|> p.dst.fault p.lens p.total true) = p.fault :=
  Option.orElse_eq_or

/-- The quoins that a transfer asks for (R211). -/
def Plan.quoins (p : Plan) (core h : Nat) (ident : BitVec 32) : List Quoin :=
  if p.quoin then p.src.quoins p.lens p.total false core 1 h ident ++ p.dst.quoins p.lens p.total true core 1 h ident else []

theorem Side.length_quoins_le (d : Side) (lens : List Nat) (total : Nat) (dst : Bool) (issuer engine chan : Nat) (ident : BitVec 32) :
    (d.quoins lens total dst issuer engine chan ident).length ≤ 1 := by
  unfold Side.quoins
  split <;> simp

/-- A tile with two free entries has room for the quoins that a transfer asks for. -/
theorem Plan.length_quoins_le (p : Plan) (core h : Nat) (ident : BitVec 32) {free : Nat} (hfree : p.quoin = true → 2 ≤ free) :
    (p.quoins core h ident).length ≤ free := by
  unfold Plan.quoins
  split
  · next hq =>
    have hsrc := p.src.length_quoins_le p.lens p.total false core 1 h ident
    have hdst := p.dst.length_quoins_le p.lens p.total true core 1 h ident
    have htwo := hfree hq
    rw [List.length_append]
    omega
  · exact Nat.zero_le _

/-- The shadow registers of a channel that fail (R201 step 1). -/
abbrev State.copyBad (s : State) (h : Nat) : List Nat :=
  badShadow (s.channel s.cur.tile h).shadow fun q => (s.quire s.cur.tile q).takes (4 + h)

/-- What the shadow registers of a channel say. -/
abbrev State.copyPlan (s : State) (h : Nat) : Plan := planOf (s.channel s.cur.tile h).shadow

/-- The transfer that the shadow registers of a channel describe, under the channel's next identifier. -/
def State.copyTransfer (s : State) (h : Nat) : Transfer :=
  { ident := (s.channel s.cur.tile h).next, snap := (s.channel s.cur.tile h).shadow, rnd := s.me.sys.fmode, bkey := s.me.sys.bkey
    by_ := ⟨s.cur.core, s.cur.ctx⟩, flags := 0, voided := false, cancel := false, bytes := 0 }

/-- The state with the event entry of a channel's transfer reserved, if it asks for one (R201). -/
def State.copyReserved (s : State) (h : Nat) : State :=
  if (s.copyPlan h).ev then s.reserveEvent s.cur.tile s.cur.core else s

/-- The state with the quoins of a channel's transfer in place and its quire tagged, as it asks (R201). -/
def State.copyClaimed (s : State) (h : Nat) : State :=
  let s1 := (s.copyReserved h).addQuoins s.cur.tile ((s.copyPlan h).quoins s.cur.core h (s.channel s.cur.tile h).next)
  if (s.copyPlan h).qtag then s1.modQuire s.cur.tile (s.copyPlan h).qnum fun q => { q with tagged := q.tagged + 1 } else s1

/-- The state with the transfer of a channel queued. -/
def State.copyQueued (s : State) (h : Nat) : State :=
  (s.copyClaimed h).modChannel s.cur.tile h fun k => { k with queue := k.queue ++ [s.copyTransfer h], next := k.next + 1 }

section Queued

variable (s : State) (h : Nat)

@[simp] theorem State.copyReserved_cur : (s.copyReserved h).cur = s.cur := by unfold State.copyReserved; split <;> rfl

theorem State.channel_copyReserved (y c : Nat) : (s.copyReserved h).channel y c = s.channel y c := by
  unfold State.copyReserved
  split
  · exact State.channel_reserveEvent s _ _ y c
  · rfl

theorem State.evq_copyReserved : (s.copyReserved h).myCore.evq =
    { s.myCore.evq with held := s.myCore.evq.held + (s.copyPlan h).ev.toNat } := by
  unfold State.copyReserved
  split
  · next hev => simp [State.myCore, State.reserveEvent, hev]
  · next hev => simp [hev]

theorem onlyEnginesAndQueues_copyReserved : onlyEnginesAndQueues s (s.copyReserved h) := by
  unfold State.copyReserved
  split
  · exact onlyEnginesAndQueues_reserveEvent s _ _
  · exact onlyEnginesAndQueues_refl s

theorem State.channel_copyClaimed (y c : Nat) : (s.copyClaimed h).channel y c = s.channel y c := by
  unfold State.copyClaimed
  split <;> simp [State.channel_copyReserved]

@[simp] theorem State.copyClaimed_cur : (s.copyClaimed h).cur = s.cur := by
  unfold State.copyClaimed
  split <;> exact State.copyReserved_cur s h

@[simp] theorem State.core_copyClaimed (y c : Nat) : (s.copyClaimed h).core y c = (s.copyReserved h).core y c := by
  unfold State.copyClaimed
  split <;> simp [State.modQuire, State.addQuoins]

theorem onlyEnginesAndQueues_copyClaimed : onlyEnginesAndQueues s (s.copyClaimed h) := by
  have hquoins (qs : List Quoin) : onlyEnginesAndQueues s ((s.copyReserved h).addQuoins s.cur.tile qs) :=
    onlyEnginesAndQueues_trans (onlyEnginesAndQueues_copyReserved s h) (onlyEnginesAndQueues_modEng _ _ _)
  unfold State.copyClaimed
  split
  · exact onlyEnginesAndQueues_trans (hquoins _) (onlyEnginesAndQueues_modEng _ _ _)
  · exact hquoins _

theorem State.channel_copyQueued : (s.copyQueued h).channel s.cur.tile h = { s.channel s.cur.tile h with
    queue := (s.channel s.cur.tile h).queue ++ [s.copyTransfer h], next := (s.channel s.cur.tile h).next + 1 } := by
  rw [State.copyQueued, State.channel_modChannel_self, State.channel_copyClaimed]

theorem State.evq_copyQueued : (s.copyQueued h).myCore.evq =
    { s.myCore.evq with held := s.myCore.evq.held + (s.copyPlan h).ev.toNat } := by
  rw [← State.evq_copyReserved]
  simp [State.myCore, State.copyQueued, State.modChannel]

theorem onlyEnginesAndQueues_copyQueued : onlyEnginesAndQueues s (s.copyQueued h) :=
  onlyEnginesAndQueues_trans (onlyEnginesAndQueues_copyClaimed s h) (onlyEnginesAndQueues_modEng _ _ _)

end Queued

/-! ## CPSET, CPDONE and CPWAIT (R200, R203, R204) -/

section Channel

variable {s : State} {o : Opnd}

theorem exec_cpset (h : s.mayRun (.g [an o] [])) : exec (.cpset o) s = completes o (.g [an o] []) s (s.modChannel s.cur.tile (dn o) fun k =>
    { k with shadow := k.shadow.set 0 o.fx.toNat (s.rg (an o)) }) :=
  meaning_of_done o h (by simp only [State.channelOf_of_no_gang h.1])

theorem exec_cpdone (h : s.mayRun (.g [] [dn o])) : exec (.cpdone o) s =
    completes o (.g [] [dn o]) s (s.wg (dn o) ((s.channel s.cur.tile (aNum o)).done.setWidth 64)) :=
  meaning_compute h (by rw [State.channelOf_of_no_gang h.1])

theorem exec_cpwait_of_outstanding (h : s.mayRun (.g [dn o] []))
    (hopen : outstanding (s.channel s.cur.tile (aNum o)).done (s.channel s.cur.tile (aNum o)).next ((s.rg (dn o)).setWidth 32) = true) :
    exec (.cpwait o) s = waits s s (.copyDone (aNum o) ((s.rg (dn o)).setWidth 32)) :=
  meaning_of_wait o h (by simp only [State.channelOf_of_no_gang h.1, if_pos hopen])

theorem exec_cpwait_of_not_outstanding (h : s.mayRun (.g [dn o] []))
    (hopen : ¬ outstanding (s.channel s.cur.tile (aNum o)).done (s.channel s.cur.tile (aNum o)).next ((s.rg (dn o)).setWidth 32) = true) :
    exec (.cpwait o) s = completes o (.g [dn o] []) s s :=
  meaning_of_done o h (by simp only [State.channelOf_of_no_gang h.1, if_neg hopen])

end Channel

/-! ## CPGO (R201, R202) -/

section Go

variable {s : State} {o : Opnd} (h : s.mayRun (.g [] [dn o]))

include h

theorem exec_cpgo_of_bad {r : Nat} {rest : List Nat} (hbad : s.copyBad (aNum o) = r :: rest) :
    exec (.cpgo o) s = traps o s .copyDescriptor (infoE 1 (aNum o) r (s.channel s.cur.tile (aNum o)).next.toNat) :=
  meaning_traps o _ h (by simp only [State.channelOf_of_no_gang h.1, hbad, List.head?_cons])

variable (hbad : s.copyBad (aNum o) = [])

include hbad

theorem exec_cpgo_of_fault {c : Cause} {e : Word} (hf : (s.copyPlan (aNum o)).fault = some (c, e)) :
    exec (.cpgo o) s = traps o s c e :=
  meaning_traps o _ h (by simp only [State.channelOf_of_no_gang h.1, hbad, List.head?_nil, Plan.fault_orElse_fault, hf])

variable (hf : (s.copyPlan (aNum o)).fault = none)

include hf

theorem exec_cpgo_of_overlap (hp : (s.copyPlan (aNum o)).overlap = true) :
    exec (.cpgo o) s = traps o s .copyDescriptor (infoE 1 (aNum o) 1 (s.channel s.cur.tile (aNum o)).next.toNat) :=
  meaning_traps o _ h (by simp only [State.channelOf_of_no_gang h.1, hbad, List.head?_nil, Plan.fault_orElse_fault, hf, if_pos hp])

variable (hp : (s.copyPlan (aNum o)).overlap = false)

include hp

theorem exec_cpgo_of_awaitsOutside (hw : s.awaitsOutside s.cur = true) : exec (.cpgo o) s = waits s s (.fence 2 3) :=
  meaning_of_wait o h (by
    simp only [State.channelOf_of_no_gang h.1, hbad, List.head?_nil, Plan.fault_orElse_fault, hf, hp, Bool.false_eq_true, if_false, if_pos hw])

variable (hw : s.awaitsOutside s.cur = false)

include hw

theorem exec_cpgo_of_full (hq : 8 ≤ (s.channel s.cur.tile (aNum o)).queue.length) :
    exec (.cpgo o) s = waits s s (.copyQueue (aNum o)) :=
  meaning_of_wait o h (by
    simp only [State.channelOf_of_no_gang h.1, hbad, List.head?_nil, Plan.fault_orElse_fault, hf, hp, hw, Bool.false_eq_true, if_false,
      if_pos hq])

theorem exec_cpgo_of_room (hq : (s.channel s.cur.tile (aNum o)).queue.length < 8)
    (hev : (s.copyPlan (aNum o)).ev = true → s.myCore.evq.hasRoom = true)
    (hquoin : (s.copyPlan (aNum o)).quoin = true → 2 ≤ s.myTile.freeQuoins.length) : exec (.cpgo o) s = completes o (.g [] [dn o]) s
      ((s.copyQueued (aNum o)).wg (dn o) ((s.channel s.cur.tile (aNum o)).next.setWidth 64)) := by
  have hroom : ¬ ((s.copyPlan (aNum o)).ev && !s.myCore.evq.hasRoom) = true := by simpa using hev
  have hfree := Nat.not_lt.2 ((s.copyPlan (aNum o)).length_quoins_le s.cur.core (aNum o) (s.channel s.cur.tile (aNum o)).next hquoin)
  unfold Plan.quoins at hfree
  exact meaning_of_done o h (by
    simp only [State.channelOf_of_no_gang h.1, hbad, List.head?_nil, Plan.fault_orElse_fault, hf, hp, hw,
      if_neg (Nat.not_le.2 hq), if_neg hroom, if_neg hfree]
    rfl)

end Go

/-! ## The obligation -/

/-- Settles O27: CPGO is the trap or the wait of its first check that does not pass, or the transfer queued. -/
theorem copyTransfersAreQueued : Obligations.CopyTransfersAreQueued := by
  unfold Obligations.CopyTransfersAreQueued
  refine fun o s => ⟨exec_cpset, fun h => ⟨exec_cpdone h, fun r rest => exec_cpgo_of_bad h, fun hbad c e => exec_cpgo_of_fault h hbad,
    exec_cpgo_of_overlap h, exec_cpgo_of_awaitsOutside h, exec_cpgo_of_full h, fun hbad hf hp hw hq hev hquoin => ?queued⟩,
    fun h => ⟨fun hopen => ?waits, fun hopen => ?completes⟩⟩
  case queued =>
    have hframe := onlyEnginesAndQueues_copyQueued s (aNum o)
    have ⟨_, _, hout⟩ := hframe
    exact ⟨s.copyQueued (aNum o), exec_cpgo_of_room h hbad hf hp hw hq hev hquoin, State.channel_copyQueued s _, State.evq_copyQueued s _,
      keepsMemory_of_onlyEnginesAndQueues hframe, keepsRegisters_of_onlyEnginesAndQueues hframe _ _,
      keepsSpecial_of_onlyEnginesAndQueues hframe, hout⟩
  case waits => exact exec_cpwait_of_outstanding h ((outstanding_iff _ _ _).2 hopen)
  case completes => exact exec_cpwait_of_not_outstanding h (mt (outstanding_iff _ _ _).1 hopen)

end Sys2Proof.Machine
end

section
/-! The steps of a tile (R434, R435): what the searches for the available step find, with and without an open step within the caps, and
the highest request of the four cores. -/

namespace Sys2Proof.Machine

/-! ## The search from above -/

/-- A search of a range from its end finds the highest number that `p` holds of. -/
theorem find?_reverse_range_eq_some {p : Nat → Bool} {m n : Nat} :
    (List.range n).reverse.find? p = some m ↔ m < n ∧ p m = true ∧ ∀ i, i < n → p i = true → i ≤ m := by
  induction n with
  | zero => simp only [List.range_zero, List.reverse_nil, List.find?_nil, reduceCtorEq, Nat.not_lt_zero, false_and]
  | succ n ih =>
    rw [List.range_succ, List.reverse_concat]
    cases hp : p n with
    | true =>
      rw [List.find?_cons_of_pos hp, Option.some_inj]
      constructor
      · rintro rfl
        exact ⟨n.lt_succ_self, hp, fun i hi _ => Nat.le_of_lt_succ hi⟩
      · rintro ⟨hm, -, hmax⟩
        exact Nat.le_antisymm (hmax n n.lt_succ_self hp) (Nat.le_of_lt_succ hm)
    | false =>
      have hlt (i : Nat) (hi : p i = true) : i < n + 1 ↔ i < n :=
        ⟨fun h => Nat.lt_of_le_of_ne (Nat.le_of_lt_succ h) (by rintro rfl; exact Bool.eq_false_iff.1 hp hi), Nat.lt_succ_of_lt⟩
      rw [List.find?_cons_of_neg (Bool.eq_false_iff.1 hp), ih]
      grind

/-! ## The available step (R435) -/

section Available

variable {k : TileClock}

/-- No step within the caps is found just if each of them is barred. -/
theorem TileClock.find?_within_eq_none :
    ((List.range (min k.tcap k.zcap + 1)).reverse.find? fun n => !k.barred n) = none ↔
      ∀ n, n ≤ k.tcap ∧ n ≤ k.zcap → k.barred n = true := by
  have hwithin (n : Nat) : n < min k.tcap k.zcap + 1 ↔ n ≤ k.tcap ∧ n ≤ k.zcap := by omega
  simp only [List.find?_eq_none, List.mem_reverse, List.mem_range, hwithin, Bool.not_eq_true', Bool.not_eq_false]

/-- With an open step within both caps, the available step is the highest such step. -/
theorem TileClock.avail_highest (hopen : ∃ n, (n ≤ k.tcap ∧ n ≤ k.zcap) ∧ k.barred n = false) :
    (k.avail ≤ k.tcap ∧ k.avail ≤ k.zcap) ∧ k.barred k.avail = false ∧
      ∀ n, n ≤ k.tcap ∧ n ≤ k.zcap → k.barred n = false → n ≤ k.avail := by
  unfold TileClock.avail
  split
  · next m hm =>
    obtain ⟨hlt, hm, hmax⟩ := find?_reverse_range_eq_some.1 hm
    exact ⟨by omega, by simpa only [Bool.not_eq_true'] using hm, fun n hn hb => hmax n (by omega) (by rw [hb, Bool.not_false])⟩
  · next hnone =>
    obtain ⟨n, hn, hb⟩ := hopen
    exact absurd (TileClock.find?_within_eq_none.1 hnone n hn) (Bool.eq_false_iff.1 hb)

/-- With every step within both caps barred, the available step is the lowest of the 32 steps that the plan leaves. -/
theorem TileClock.avail_lowest (hbarred : ∀ n, n ≤ k.tcap ∧ n ≤ k.zcap → k.barred n = true) (hleft : ∃ n, n < 32 ∧ k.barred n = false) :
    k.avail < 32 ∧ k.barred k.avail = false ∧ ∀ n, n < k.avail → k.barred n = true := by
  obtain ⟨n, hn, hb⟩ := hleft
  have hsome : ((List.range 32).find? fun n => !k.barred n).isSome := List.find?_isSome.2 ⟨n, List.mem_range.2 hn, by rw [hb, Bool.not_false]⟩
  obtain ⟨m, hm⟩ := Option.isSome_iff_exists.1 hsome
  have havail : k.avail = m := by rw [TileClock.avail, TileClock.find?_within_eq_none.2 hbarred, hm, Option.getD_some]
  obtain ⟨hopen, hlt, hlow⟩ := List.find?_range_eq_some.1 hm
  rw [havail]
  exact ⟨List.mem_range.1 hlt, by simpa only [Bool.not_eq_true'] using hopen,
    by simpa only [Bool.not_eq_true', Bool.not_eq_false'] using hlow⟩

end Available

/-! ## The highest request (R434) -/

theorem Tile.max?_freqReq (y : Tile) : ((List.range 4).map fun c => (y.core c).freqReq).max? = some y.request := by
  simp only [Tile.request, List.range_succ, List.range_zero, List.nil_append, List.cons_append, List.map_cons, List.map_nil,
    List.max?_cons', List.foldl_cons, List.foldl_nil, Nat.zero_max]

theorem Tile.freqReq_le_request (y : Tile) {c : Nat} (hc : c < 4) : (y.core c).freqReq ≤ y.request :=
  (List.max?_eq_some_iff.1 y.max?_freqReq).2 _ (List.mem_map_of_mem (List.mem_range.2 hc))

theorem Tile.exists_request_eq_freqReq (y : Tile) : ∃ c, c < 4 ∧ y.request = (y.core c).freqReq := by
  obtain ⟨c, hc, heq⟩ := List.mem_map.1 (List.max?_mem y.max?_freqReq)
  exact ⟨c, List.mem_range.1 hc, heq.symm⟩

/-! ## The obligation -/

/-- Settles O60: the search from the lower cap down, the search from step 0 up where that finds none, and the maximum of the requests. -/
theorem targetStepFollowsCapsAndPlan : Obligations.TargetStepFollowsCapsAndPlan := by
  unfold Obligations.TargetStepFollowsCapsAndPlan
  exact fun y => ⟨TileClock.avail_highest, TileClock.avail_lowest, fun _ => y.freqReq_le_request, y.exists_request_eq_freqReq, rfl⟩

end Sys2Proof.Machine
end
